-- ==== Sys2Proof/Word.lean ====
section
/-! DEFINITION. The smallest words of the model: bytes, station and line numbers, keys of the message
table, and the two plain arithmetic helpers the manual's conventions name. -/

namespace Sys2Proof

/-- One byte of a frame, a record or an image. -/
abbrev Byte := BitVec 8

/-- A station number as a frame carries it: 0–62 a station, 63 all stations (as a destination). -/
abbrev Station := Fin 64

/-- One of the card's four lines. -/
abbrev LineId := Fin 4

/-- The index of a record in the message table (R132). -/
abbrev Slot := Fin 96

/-- A page of the page pool (R135). -/
abbrev PageId := Fin 2048

/-- A frequency band. -/
abbrev Band := Fin 8

/-- A poster's message number. -/
abbrev MsgNumber := Fin 4096

/-- A set of bands, one bit for each, as SILENCE, RESUME, ANNOUNCE and STATUS carry it. -/
abbrev BandMask := BitVec 8

/-- The destination number that names all stations. -/
abbrev allStations : Station := 63

/-- ceil(x/y), as the manual's conventions define it. -/
def ceilDiv (x y : Nat) : Nat := (x + y - 1) / y

/-- The four lines, in line-number order. -/
def lineIds : List LineId := [0, 1, 2, 3]

/-- A vector written by its entries. -/
def vecOf {α : Type} (n : Nat) (f : Fin n → α) : Vector α n :=
  ⟨⟨(List.finRange n).map f⟩, by simp⟩

/-- The key of a message: the poster's station and its message number. -/
structure Key where
  station : Station
  number : MsgNumber
  deriving DecidableEq, Repr

end Sys2Proof
end

