-- ==== Sys2Proof/Syntax.lean ====
section
/-! DEFINITION. The commands of the card, whole: one constructor of `Instr` for each row of
spec/opcode_table.json, with the operands the event brings (chapter 12 gives their widths). -/

namespace Sys2Proof

/-- The frame kinds of chapter 12's table. -/
inductive FrameKind
  | offer | claim | take | text | post | withdraw | delivered | returned | refused | withdrawn | bsent
  | silence | resume | stopLine | startLine | patternOn | patternOff | restart | time | announce
  | lineState | statusQuery | status
  deriving DecidableEq, Repr

/-- The header of a frame that has been received: where it comes from and where it goes. The
precedence matters on the wire only (R166), and the kind is the command's own name. -/
structure Header where
  source : Station
  dest : Station
  deriving DecidableEq, Repr

/-- The content of an ANNOUNCE (R181): its four flags, the channels of its lines, its minute and its
silenced set. -/
structure Announcement where
  fault : Bool
  timeValid : Bool
  reply : Bool
  restarted : Bool
  channels : Vector (Fin 1024) 4
  minute : Fin 2048
  silenced : BandMask
  deriving DecidableEq, Repr

/-- How the read of the configuration store ends (R178): the store does not answer, the image is not
complete within 100 ms, or the bytes of an image arrive (whose CRC the card then checks). -/
inductive ConfigRead
  | noAnswer
  | incomplete
  | image (bytes : List Byte)
  deriving DecidableEq, Repr

/-- The checks of R168 whose failure is counted in bad-frames: checks 1 to 4. -/
inductive FailedCheck
  | crc | kind | length | source
  deriving DecidableEq, Repr

/-- One command: an event that reaches the card. -/
inductive Instr
  /-- PIN_RESET: pin reset, or power applied, with the value on the six strap pins (R178). -/
  | pinReset (pins : Fin 64)
  /-- CONFIGURATION_READ_END: the read of the configuration store ends (R178). -/
  | configurationReadEnd (result : ConfigRead)
  /-- START_INTERVAL_EXPIRY: the 1000 ms start interval runs out (R180). -/
  | startIntervalExpiry
  /-- BOUNDARY: a line's cycle clock reaches a boundary (R2). -/
  | boundary (line : LineId)
  /-- OUTCOME_RECORD: the six bytes of an outcome record arrive on a line link (R5, R188). -/
  | outcomeRecord (line : LineId) (head d1 d2 d3 d4 d5 : Byte)
  /-- SECOND_TIMER_EXPIRY: the 1000 ms second timer runs out (R88). -/
  | secondTimerExpiry
  /-- TIME: a TIME frame (R91). -/
  | time (h : Header) (minute : Fin 2048) (second : Fin 64)
  /-- LOAD_TIMER_EXPIRY: the load timer of the record under a key runs out (R141). -/
  | loadTimerExpiry (key : Key)
  /-- CLAIM_WINDOW_EXPIRY: the timer of the claim window for a key runs out (R158). -/
  | claimWindowExpiry (key : Key)
  /-- OFFER: an OFFER frame (R153). -/
  | offer (h : Header) (number : MsgNumber) (ship : Fin 131072) (n : Fin 8192) (band : Band)
      (clearAfter : Bool)
  /-- CLAIM: a CLAIM frame (R157). -/
  | claim (h : Header) (key : Key) (grade : Fin 4)
  /-- TAKE_RECEIVED: a TAKE frame (R163). -/
  | takeReceived (h : Header) (key : Key)
  /-- TEXT: a TEXT frame with its chunk (R138). -/
  | text (h : Header) (key : Key) (seq : Fin 256) (chunk : List Byte)
  /-- POST: a POST frame with its channel list (R64). -/
  | post (h : Header) (number : MsgNumber) (cls : Fin 16) (n : Fin 8192) (channels : List (Fin 1024))
  /-- WITHDRAW: a WITHDRAW frame (R147, R83). -/
  | withdraw (h : Header) (key : Key)
  /-- SILENCE: a SILENCE order with its band mask (R13). -/
  | silence (h : Header) (mask : BandMask)
  /-- RESUME: a RESUME order with its band mask (R13). -/
  | resume (h : Header) (mask : BandMask)
  /-- STOP_LINE: a STOP LINE order (R15). -/
  | stopLine (h : Header) (line : LineId)
  /-- START_LINE: a START LINE order (R15). -/
  | startLine (h : Header) (line : LineId)
  /-- PATTERN_ON: a PATTERN ON order (R15). -/
  | patternOn (h : Header) (line : LineId)
  /-- PATTERN_OFF: a PATTERN OFF order (R15). -/
  | patternOff (h : Header) (line : LineId)
  /-- RESTART: a RESTART order (R184). -/
  | restart (h : Header)
  /-- ANNOUNCE: an ANNOUNCE frame (R181). -/
  | announce (h : Header) (a : Announcement)
  /-- STATUS_QUERY: a STATUS QUERY with its selector (R175). -/
  | statusQuery (h : Header) (selector : Fin 256)
  /-- BAD_FRAME: a frame that fails one of checks 1 to 4 (R168). -/
  | badFrame (check : FailedCheck)
  /-- IGNORED_FRAME: a valid frame that check 5 ignores (R169). -/
  | ignoredFrame (h : Header) (kind : FrameKind)
  /-- CONTENTION: the bus is idle, and the card may start sending (R166). -/
  | contention
  /-- CONTENTION_LOST: a bit of the contention field was read back as 0 where 1 was sent (R166). -/
  | contentionLost
  /-- SENDING_CUT_SHORT: a bit after the contention field was read back wrongly (R167). -/
  | sendingCutShort
  /-- SENDING_COMPLETE: the last bit of the frame on the wire was sent (R167). -/
  | sendingComplete
  /-- REPORT_HANDED: the store hands its oldest pending report to the transmit queue (R144). -/
  | reportHanded
  deriving DecidableEq, Repr

end Sys2Proof
end

