-- ==== Sys2Proof/Decode.lean ====
section
/-! DEFINITION. The command that a word of spec/opcode_table.json spells. No row of the table carries
bits (none has "fixed" or "fields"), so no word spells a command. The bits the manual does give, of bus
frames, link records and the configuration image, are read in Machine/Wire.lean, Machine/Links.lean and
Machine/Image.lean. -/

namespace Sys2Proof

/-- The command that the low `nbits` bits of `w` spell by the opcode table: none, since no row of the
table gives bits. -/
def decodeTableWord (_nbits _w : Nat) : Option Instr := none

end Sys2Proof
end

