-- ==== Sys2Proof/Config.lean ====
section
/-! DEFINITION. The sizes the manual fixes, and the card's configuration as it stands after start
(R63, R178, chapter 12). The manual leaves no result of a command open, so there is no free value. -/

namespace Sys2Proof

/-! The sizes and limits of the manual. -/

namespace Config

/-- Ship entries in the card's pool (R25). -/
def entryPool : Nat := 32
/-- Claim windows the card can hold open (R156). -/
def claimLimit : Nat := 8
/-- Frames the transmit queue can hold (R172). -/
def queueLimit : Nat := 24
/-- The queue length at or below which a record-borne report is handed (R144). -/
def reportLimit : Nat := 16
/-- The value at which every counter stays (R131). -/
def counterLimit : Nat := 65535
/-- Characters in a page (R135). -/
def pageSize : Nat := 32
/-- Characters in a full chunk (R138). -/
def chunkSize : Nat := 48
/-- CALL cycles in a call (R31). -/
def callLimit : Nat := 10
/-- Failed attempts at which an entry's messages are returned (R29). -/
def attemptLimit : Nat := 3
/-- The retry hold after a failed attempt (R29). -/
def retryHold : Nat := 60
/-- The last trial offset of an alignment, in ms (R33). -/
def lastOffset : Nat := 44
/-- The highest ship number (R154). -/
def shipLimit : Nat := 99999
/-- The bytes of the configuration image (chapter 12). -/
def imageSize : Nat := 339

end Config

/-- The type of a bulletin class (R63). -/
inductive ClassType
  | cutIn | window | free | closed
  deriving DecidableEq, Repr

/-- One entry of the class table (R63). -/
structure ClassEntry where
  kind : ClassType
  /-- MAX-RANK. -/
  maxRank : Fin 4
  /-- REPEATS, 0–8 after clamping. -/
  repeats : Nat
  deriving DecidableEq, Repr

/-- One entry of an interleave table: T or B. -/
inductive TableEntry
  | telex | bulletin
  deriving DecidableEq, Repr

/-- The configuration of one line. -/
structure LineConfig where
  /-- CHANNEL, 0–999; 0 leaves the line not enabled. -/
  channel : Nat
  /-- BAND. -/
  band : Band
  /-- Q0, the quality figure given at link. -/
  q0 : Nat
  /-- GRACE (G). -/
  grace : Nat
  /-- LINGER (L). -/
  linger : Nat
  /-- PARK-LIMIT (Pk), 8–60. -/
  parkLimit : Nat
  /-- TURN (R), 1–16. -/
  turn : Nat
  /-- Window times 0–7; 1440 and above are unused. -/
  windowTimes : Vector Nat 8
  /-- The interleave table. -/
  table : Vector TableEntry 32
  deriving DecidableEq, Repr

/-- The configuration settled at start. -/
structure CardConfig where
  /-- The rank of each source station. -/
  rankMap : Vector (Fin 4) 64
  /-- CLASS-COUNT, 1–16. -/
  classCount : Nat
  classes : Vector ClassEntry 16
  lines : Vector LineConfig 4
  deriving DecidableEq, Repr

/-- A line with nothing configured: not enabled, no window times. PARK-LIMIT is the manual's default
of 40 (chapter 03), TURN and the rest the least values their ranges allow. DESIGN CHOICE (log 2): what
the configuration reads as before a read has settled one, and in FAULT, where none is in use (R179). -/
def LineConfig.blank : LineConfig :=
  { channel := 0, band := 0, q0 := 0, grace := 0, linger := 0, parkLimit := 40, turn := 1
    windowTimes := Vector.replicate 8 1440, table := Vector.replicate 32 .bulletin }

/-- No configuration in use (log 2). -/
def CardConfig.blank : CardConfig :=
  { rankMap := Vector.replicate 64 0, classCount := 1
    classes := Vector.replicate 16 ⟨.closed, 0, 0⟩, lines := Vector.replicate 4 .blank }

end Sys2Proof
end

