-- ==== Sys2Proof/Machine/State.lean ====
section
/-! DEFINITION. The state of the card, whole and as plain data: the bus port, the message store, the claim
unit, the bulletin unit, the schedule clock, the four line controllers, the start unit, and the queue of
commands that wait. Each type names the rule that gives it. -/

namespace Sys2Proof.Machine

/-! ## What the card says: frames and cycle records -/

/-- The modes of a line (chapter 01). -/
inductive Mode
  | disabled | stopped | rest | keying | active | silent | pattern
  deriving DecidableEq, Repr

/-- The results a LINESTATE carries (R20). -/
inductive OrderResult
  | accepted | busy | noLine
  deriving DecidableEq, Repr

/-- The reasons of RETURNED and REFUSED (chapter 12). -/
inductive Reason
  | noAnswer | wrongStation | lost | restart | conflict | rank | range | closed | storeFull | textGap
  | textTimeout
  deriving DecidableEq, Repr

/-- The states of a circuit record (R23); NONE is a line without a record. -/
inductive CircuitState
  | calling | aligning | identifying | linked | parked | rephasing | clearing
  deriving DecidableEq, Repr

/-- Sendings of a part still to make (R71): a number, or STANDING. -/
inductive Remaining
  | times (n : Nat)
  | standing
  deriving DecidableEq, Repr

/-- The fields of a card STATUS (R176). -/
structure CardStatus where
  fault : Bool
  timeValid : Bool
  badFrames : Nat
  rankRefused : Nat
  framesDiscarded : Nat
  claimsWon : Nat
  claimsLost : Nat
  freeSlots : Nat
  freePages : Nat
  openWindows : Nat
  silenced : BandMask
  minute : Nat
  deriving DecidableEq, Repr

/-- The counters a line controller keeps (R131). -/
structure LineCounters where
  blocksSent : Nat
  repeats : Nat
  circuitsLinked : Nat
  circuitsLost : Nat
  callsFailed : Nat
  bulletinSendings : Nat
  keepsSent : Nat
  windowsAbsorbed : Nat
  deriving DecidableEq, Repr

/-- The fields of a line STATUS (R176). -/
structure LineStatus where
  line : LineId
  mode : Mode
  circuit : Option CircuitState
  ship : Nat
  q : Nat
  lastEst : Nat
  estSaturated : Bool
  cutInLength : Nat
  windowLength : Nat
  freeLength : Nat
  counters : LineCounters
  deriving DecidableEq, Repr

/-- The frames the card sends (chapter 12, "Card sends"), by kind and content. -/
inductive Payload
  | claim (key : Key) (grade : Fin 4)
  | take (key : Key)
  | delivered (key : Key)
  | returned (key : Key) (reason : Reason)
  | refused (key : Key) (reason : Reason)
  | withdrawn (key : Key) (cut : Bool)
  | bsent (key : Key) (channel : Nat) (remaining : Remaining)
  | announce (a : Announcement)
  | lineState (line : LineId) (mode : Mode) (result : OrderResult)
  | cardStatus (status : CardStatus)
  | lineStatus (status : LineStatus)
  deriving DecidableEq, Repr

/-- A frame of the card's. Its source is the card's own station (R186), and its precedence follows from
its kind (R172). -/
structure Frame where
  dest : Station
  payload : Payload
  deriving DecidableEq, Repr

/-- A place of the transmit queue (R172): the frame, and whether it is on the wire. Its time of entry is
its place: the queue is kept in queue order, older frames of one precedence first. -/
structure Queued where
  frame : Frame
  onWire : Bool
  deriving DecidableEq, Repr

/-- The kind of a cycle with what it carries (R3, chapter 12). -/
inductive Cycle
  | unkeyed | keyup | filler
  | call (ship : Nat)
  | align | ident
  | block (chars : List Byte)
  | idleblock | park | keep | rephase | clear
  | bhead (key : Key) (cls : Fin 16) (n : Nat)
  | btext (chars : List Byte)
  | bend | bbroken | notice | pattern
  deriving DecidableEq, Repr

/-- A cycle record as handed to a modem (R3). -/
structure CycleRecord where
  tag : Fin 8
  windowOffset : Nat
  cycle : Cycle
  deriving DecidableEq, Repr

/-- The outcomes a modem reports (R5); `noAnswer` is the kind NONE. IDENT brings five digit bytes. -/
inductive Outcome
  | good | repeated | garbled | noAnswer | callAnswer | edgeEarly | edgeIn
  | ident (digits : List Byte)
  deriving DecidableEq, Repr

/-! ## The line controller -/

/-- The four line orders (R15). -/
inductive LineOrder
  | stop | start | patternOn | patternOff
  deriving DecidableEq, Repr

/-- A line order waiting for the next boundary, with the station that sent it. -/
structure HeldOrder where
  order : LineOrder
  source : Station
  deriving DecidableEq, Repr

/-- Why a circuit is CLEARING (R44). -/
inductive ClearCause
  | ordinary | lost | wrongStation
  deriving DecidableEq, Repr

/-- The block sent and not yet acknowledged (R23): its start position, from 1, and its characters. -/
structure Block where
  start : Nat
  chars : List Byte
  deriving DecidableEq, Repr

/-- The circuit record (R23). -/
structure Circuit where
  ship : Nat
  state : CircuitState
  echoOffset : Nat
  trialOffset : Nat
  q : Nat
  failRun : Nat
  rephaseCount : Nat
  silenceCount : Nat
  lingerCount : Nat
  callCycles : Nat
  rephaseCycles : Nat
  identTries : Nat
  clearCycles : Nat
  clearCause : ClearCause
  current : Option Slot
  block : Option Block
  k : Nat
  cut : Bool
  deriving DecidableEq, Repr

/-- A ship entry (R25), which stands on the call list of one line. -/
structure Entry where
  ship : Nat
  band : Band
  messages : List Slot
  attempts : Nat
  retryHold : Nat
  recalled : Bool
  lastFailure : Option Reason
  deriving DecidableEq, Repr

/-- The states of a line's window (R94). -/
inductive WindowState
  | closed | pending | isOpen | openDeferred
  deriving DecidableEq, Repr

/-- The window state of a line (R94), apart from its counter. -/
structure Window where
  state : WindowState
  deferredFor : Option Slot
  deferredCycles : Nat
  unitsEnded : Bool
  noticeStep : Nat
  lastEst : Nat
  estSaturated : Bool
  deriving DecidableEq, Repr

/-- The turn in progress (R104). -/
inductive Turn
  | noTurn | telex | bulletin
  deriving DecidableEq, Repr

/-- The state of a line's interleaver (R104). -/
structure Arbiter where
  phasePointer : Fin 32
  turn : Turn
  turnCycles : Nat
  bBegun : Bool
  keepOffered : Bool
  deriving DecidableEq, Repr

/-- The state of one line controller, with the bulletin queues of its line. `cycle` is the record the
modem acts on (absent before the first boundary); its tag is the line's cycle-tag (R1). -/
structure Line where
  mode : Mode
  cycle : Option CycleRecord
  outcome : Option Outcome
  keyupCount : Nat
  fillerRun : Nat
  held : Option HeldOrder
  silenceAnswer : Option Station
  circuit : Option Circuit
  callList : List Entry
  cutInQueue : List Slot
  windowQueue : List Slot
  freeQueue : List Slot
  window : Window
  arbiter : Arbiter
  counters : LineCounters
  deriving DecidableEq, Repr

/-! ## The message store -/

/-- The states of a record (R134). -/
inductive RecordState
  | claiming | loading | ready | onAir | reporting
  deriving DecidableEq, Repr

/-- The states of a bulletin part (R71). -/
inductive PartState
  | queued | onAir | done
  deriving DecidableEq, Repr

/-- A bulletin part (R71). Its bsent-pending is the BSENT that the report list holds for it. -/
structure Part where
  line : LineId
  state : PartState
  remaining : Remaining
  passMark : Bool
  formStep : Nat
  deriving DecidableEq, Repr

/-- The telex fields of a record (R133). -/
structure Telex where
  ship : Nat
  band : Band
  clearAfter : Bool
  ackCount : Nat
  line : Option LineId
  deriving DecidableEq, Repr

/-- The bulletin fields of a record (R133, R68); `cutCounted` notes that a part was counted as cut
(R85). -/
structure Bulletin where
  cls : Fin 16
  kind : ClassType
  repeats : Nat
  parts : List Part
  cutCounted : Bool
  deriving DecidableEq, Repr

/-- The kind of a record with the fields of that kind. -/
inductive Body
  | telex (t : Telex)
  | bulletin (b : Bulletin)
  deriving DecidableEq, Repr

/-- A record of the message table (R133). `takeWaiting` is the claim unit's note that a TAKE for the key
waits for its echo (R162). Its pending reports stand in the report list. -/
structure Record where
  key : Key
  state : RecordState
  n : Nat
  loaded : Nat
  nextSeq : Nat
  pageList : List PageId
  reserved : List PageId
  loadTimer : Bool
  withdrawMark : Bool
  takeWaiting : Bool
  body : Body
  deriving DecidableEq, Repr

/-- A pending report (R143). `conflict` is REFUSED(CONFLICT), which is not final. -/
inductive ReportItem
  | delivered
  | returned (reason : Reason)
  | withdrawn (cut : Bool)
  | refused (reason : Reason)
  | conflict
  | bsent (line : LineId) (remaining : Remaining)
  deriving DecidableEq, Repr

/-- A place of the report list (R143): the record that holds the report, and the report. -/
structure Report where
  slot : Slot
  item : ReportItem
  deriving DecidableEq, Repr

/-- The text held in the page pool: character i of page p at address 32p + i, addresses strictly rising,
no entry equal to `Memory.blank`. -/
abbrev Memory := List Host.Cell

/-- What a character place that nothing has written reads as (DESIGN CHOICE, log 3): the manual gives no
power-on contents of the page pool, and no rule reads a place before text is stored there. -/
def Memory.blank : Byte := 0

/-- The canonical form of the text memory: inside the pool's 65536 places, addresses strictly rising,
and no entry that reads as an unlisted address does. -/
def Memory.wf : Memory → Bool
  | [] => true
  | [(a, v)] => decide (a < 65536) && v != Memory.blank
  | (a, v) :: (b, w) :: rest => decide (a < b) && v != Memory.blank && Memory.wf ((b, w) :: rest)

/-! ## The claim unit -/

/-- A noted claim (R156). -/
structure NotedClaim where
  grade : Fin 4
  station : Station
  deriving DecidableEq, Repr

/-- A claim window (R156); `noted` is own-claim NOTED, its absence QUEUED. -/
structure ClaimWindow where
  key : Key
  slot : Slot
  ownGrade : Fin 4
  noted : Bool
  best : Option NotedClaim
  needsEntry : Bool
  deriving DecidableEq, Repr

/-! ## The card -/

/-- The card counters (R131). -/
structure CardCounters where
  badFrames : Nat
  rankRefused : Nat
  framesDiscarded : Nat
  claimsWon : Nat
  claimsLost : Nat
  deriving DecidableEq, Repr

/-- Whether the configuration read of R178 is in progress or has ended. While it is in progress the
cycle clocks and the second timer stand still and the bus port neither receives nor contends. -/
inductive Phase
  | reading | settled
  deriving DecidableEq, Repr

/-- The state of the card, and the commands waiting for it. -/
structure State where
  /-- The commands waiting, first in, first out (the model's own field). -/
  pending : List Instr
  /-- Start unit: the configuration read in progress or ended. -/
  phase : Phase
  /-- Start unit: the card's own station (R178). -/
  strap : Station
  /-- Start unit: FAULT (R179). -/
  fault : Bool
  /-- Start unit: the known stations (R181), no station twice. -/
  known : List Station
  /-- Start unit: the start interval runs (R180). -/
  startInterval : Bool
  /-- The configuration settled at start (R178). -/
  config : CardConfig
  /-- The silenced set (R13). -/
  silenced : BandMask
  /-- Schedule clock: the minute of day (R88). -/
  minute : Fin 1440
  /-- Schedule clock: the second (R88). -/
  second : Fin 60
  /-- Schedule clock: time-valid (R88). -/
  timeValid : Bool
  /-- Schedule clock: the window marks of each line (R90). -/
  marks : Vector (Vector Bool 8) 4
  /-- Message store: the message table (R132). -/
  records : Vector (Option Record) 96
  /-- Message store: the free list of the page pool (R135). -/
  freePages : List PageId
  /-- Message store: the text in the page pool (R135). -/
  text : Memory
  /-- Message store: the report list (R143). -/
  reports : List Report
  /-- Claim unit: the open claim windows (R156). -/
  claims : List ClaimWindow
  /-- Bus port: the transmit queue (R172). -/
  queue : List Queued
  /-- Bus port and claim unit: the card counters (R131). -/
  counters : CardCounters
  /-- The four line controllers. -/
  lines : Vector Line 4
  deriving DecidableEq, Repr

/-- Counters at 0 (R49, R62, R87, R103). -/
def LineCounters.zero : LineCounters :=
  { blocksSent := 0, repeats := 0, circuitsLinked := 0, circuitsLost := 0, callsFailed := 0
    bulletinSendings := 0, keepsSent := 0, windowsAbsorbed := 0 }

/-- Counters at 0 (R165, R177). -/
def CardCounters.zero : CardCounters :=
  { badFrames := 0, rankRefused := 0, framesDiscarded := 0, claimsWon := 0, claimsLost := 0 }

/-- The window state after pin reset and RESTART (R94). -/
def Window.reset : Window :=
  { state := .closed, deferredFor := none, deferredCycles := 0, unitsEnded := false, noticeStep := 0
    lastEst := 0, estSaturated := false }

/-- The interleaver's state after pin reset and RESTART (R104). -/
def Arbiter.reset : Arbiter :=
  { phasePointer := 0, turn := .noTurn, turnCycles := 0, bBegun := false, keepOffered := false }

/-- A line controller after pin reset (R7, R50, R87, R94, R104), before the read's end gives it its
mode: DISABLED until then (DESIGN CHOICE, log 1). -/
def Line.reset : Line :=
  { mode := .disabled, cycle := none, outcome := none, keyupCount := 0, fillerRun := 0, held := none
    silenceAnswer := none, circuit := none, callList := [], cutInQueue := [], windowQueue := []
    freeQueue := [], window := .reset, arbiter := .reset, counters := .zero }

/-- The card right after pin reset (R178, R185, R151, R177, R88): the configuration read has begun and
has not ended. The strap pins read 0 until a PIN_RESET brings their value (DESIGN CHOICE, log 1). -/
def State.reset : State :=
  { pending := [], phase := .reading, strap := 0, fault := false, known := [], startInterval := false
    config := .blank, silenced := 0, minute := 0, second := 0, timeValid := false
    marks := Vector.replicate 4 (Vector.replicate 8 false), records := Vector.replicate 96 none
    freePages := List.finRange 2048, text := [], reports := [], claims := [], queue := []
    counters := .zero, lines := Vector.replicate 4 Line.reset }

/-- The reasons the card could stop with. The manual names none: every command, in every state of the
card, ends in a next state, so this type has no constructor. -/
inductive Fault
  deriving DecidableEq, Repr

/-- The reasons a command has no meaning in the model. -/
inductive Refusal
  /-- Raised by an arm of `exec` whose command has no meaning yet; safe (the model stops where the card
  goes on). No arm raises it now. -/
  | notModelled (mnemonic : String)
  deriving DecidableEq, Repr

end Sys2Proof.Machine
end

