-- ==== Sys2Proof/Machine/Ops.lean ====
section
/-! DEFINITION. The named operations over the card's registers and buffers: lines, counters, the message
table, the page pool and its text, the report list, and the transmit queue. -/

namespace Sys2Proof.Machine

/-! ## Lines and counters -/

/-- One more, held at 65535 (R131). -/
def bump (c : Nat) : Nat := if c < Config.counterLimit then c + 1 else c

def State.line (s : State) (l : LineId) : Line := s.lines[l]

def State.setLine (s : State) (l : LineId) (x : Line) : State := { s with lines := s.lines.set l x }

def State.modLine (s : State) (l : LineId) (f : Line → Line) : State := s.setLine l (f (s.line l))

/-- Changes every line by a function of the line and its number. -/
def State.mapLines (s : State) (f : LineId → Line → Line) : State :=
  { s with lines := vecOf 4 fun l => f l s.lines[l] }

def State.lineConfig (s : State) (l : LineId) : LineConfig := s.config.lines[l]

def State.modCounters (s : State) (l : LineId) (f : LineCounters → LineCounters) : State :=
  s.modLine l fun x => { x with counters := f x.counters }

def State.setCircuit (s : State) (l : LineId) (c : Option Circuit) : State :=
  s.modLine l fun x => { x with circuit := c }

def State.modWindow (s : State) (l : LineId) (f : Window → Window) : State :=
  s.modLine l fun x => { x with window := f x.window }

def State.modArbiter (s : State) (l : LineId) (f : Arbiter → Arbiter) : State :=
  s.modLine l fun x => { x with arbiter := f x.arbiter }

/-- One more window end without a TAKE, or one more dropped record (R165). -/
def State.bumpLost (s : State) : State :=
  { s with counters := { s.counters with claimsLost := bump s.counters.claimsLost } }

/-- Whether a mode keys the transmitter (the table of chapter 01). -/
def Mode.keyed : Mode → Bool
  | .keying | .active | .pattern => true
  | .disabled | .stopped | .rest | .silent => false

/-! ## The message table -/

/-- All slots, lowest first. -/
def slots : List Slot := List.finRange 96

def State.record (s : State) (i : Slot) : Option Record := s.records[i]

def State.setRecord (s : State) (i : Slot) (r : Option Record) : State :=
  { s with records := s.records.set i r }

def State.modRecord (s : State) (i : Slot) (f : Record → Record) : State :=
  s.setRecord i ((s.record i).map f)

/-- The slot of the record under a key (R132). -/
def State.findKey (s : State) (k : Key) : Option Slot :=
  slots.find? fun i => (s.record i).any fun r => r.key = k

/-- The lowest-numbered free slot (R132). -/
def State.freeSlot (s : State) : Option Slot := slots.find? fun i => (s.record i).isNone

/-- The count of free slots card STATUS carries (R132). -/
def State.freeSlotCount (s : State) : Nat := (slots.filter fun i => (s.record i).isNone).length

def Record.telex? (r : Record) : Option Telex :=
  match r.body with
  | .telex t => some t
  | .bulletin _ => none

def Record.bulletin? (r : Record) : Option Bulletin :=
  match r.body with
  | .telex _ => none
  | .bulletin b => some b

/-- The parts of a bulletin record; a telex record has none. -/
def Record.parts (r : Record) : List Part := (r.bulletin?.map (·.parts)).getD []

/-- The characters the ship has acknowledged (R37). -/
def Record.ackCount (r : Record) : Nat := (r.telex?.map (·.ackCount)).getD 0

def Record.modTelex (r : Record) (f : Telex → Telex) : Record :=
  match r.body with
  | .telex t => { r with body := .telex (f t) }
  | .bulletin _ => r

def Record.modBulletin (r : Record) (f : Bulletin → Bulletin) : Record :=
  match r.body with
  | .telex _ => r
  | .bulletin b => { r with body := .bulletin (f b) }

def Record.part? (r : Record) (l : LineId) : Option Part := r.parts.find? fun p => p.line = l

def Record.modPart (r : Record) (l : LineId) (f : Part → Part) : Record :=
  r.modBulletin fun b => { b with parts := b.parts.map fun p => if p.line = l then f p else p }

def Record.dropPart (r : Record) (l : LineId) : Record :=
  r.modBulletin fun b => { b with parts := b.parts.filter fun p => p.line ≠ l }

/-- The part that a record holds for a line. -/
def State.part? (s : State) (i : Slot) (l : LineId) : Option Part :=
  (s.record i).bind fun r => r.part? l

/-- The remaining-block count r (R124). -/
def Record.remainingBlocks (r : Record) : Nat := ceilDiv (r.n - r.ackCount) 4

/-! ## The page pool and its text -/

/-- The pages of a text of n characters (R121). -/
def pagesFor (n : Nat) : Nat := ceilDiv n Config.pageSize

/-- The character at an address of the pool. -/
def Memory.read : Memory → Nat → Byte
  | [], _ => Memory.blank
  | (b, v) :: m, a => if a = b then v else Memory.read m a

/-- The pool with one character written; the canonical form is kept. -/
def Memory.write : Memory → Nat → Byte → Memory
  | [], a, v => if v = Memory.blank then [] else [(a, v)]
  | (b, w) :: m, a, v =>
    if a < b then if v = Memory.blank then (b, w) :: m else (a, v) :: (b, w) :: m
    else if a = b then if v = Memory.blank then m else (a, v) :: m
    else (b, w) :: Memory.write m a v

/-- Where the character at a position (from 1) of a record's text lies: page p of the page-list holds
characters 32(p − 1) + 1 to 32p (R121). -/
def charAddress (pages : List PageId) (position : Nat) : Nat :=
  (pages.getD ((position - 1) / Config.pageSize) 0).val * Config.pageSize
    + (position - 1) % Config.pageSize

/-- `count` characters of a record's text from a position. -/
def State.readChars (s : State) (r : Record) (start count : Nat) : List Byte :=
  (List.range count).map fun j => s.text.read (charAddress r.pageList (start + j))

/-- Characters written into a text from a position on (R139). -/
def writeChars (pages : List PageId) : Memory → Nat → List Byte → Memory
  | m, _, [] => m
  | m, position, b :: bs => writeChars pages (m.write (charAddress pages position) b) (position + 1) bs

/-- The record's pages, its page-list and then its reserved pages, join the tail of the free list
(R135, R137). -/
def State.returnPages (s : State) (i : Slot) : State :=
  match s.record i with
  | none => s
  | some r =>
    { s with freePages := s.freePages ++ r.pageList ++ r.reserved }.setRecord i
      (some { r with pageList := [], reserved := [] })

/-- A record made in the lowest free slot with its pages reserved from the head of the free list, or
nothing where the key is held, no slot is free or too few pages are (R132, R136). -/
def State.createRecord (s : State) (k : Key) (n : Nat) (st : RecordState) (timer : Bool) (b : Body) :
    Option (Slot × State) :=
  match s.findKey k, s.freeSlot with
  | none, some i =>
    if s.freePages.length < pagesFor n then none
    else some (i, { s with freePages := s.freePages.drop (pagesFor n) }.setRecord i
      (some { key := k, state := st, n := n, loaded := 0, nextSeq := 0, pageList := []
              reserved := s.freePages.take (pagesFor n), loadTimer := timer, withdrawMark := false
              takeWaiting := false, body := b }))
  | _, _ => none

/-! ## The report list -/

/-- A report made pending joins the tail of the report list (R143). -/
def State.addReport (s : State) (i : Slot) (item : ReportItem) : State :=
  { s with reports := s.reports ++ [⟨i, item⟩] }

/-- Whether a report is the BSENT of a record's part on a line. -/
def Report.isBsentOf (p : Report) (i : Slot) (l : LineId) : Bool :=
  match p.item with
  | .bsent l' _ => decide (p.slot = i) && decide (l' = l)
  | _ => false

/-- Whether a report is a BSENT of a record. -/
def Report.isBsent (p : Report) (i : Slot) : Bool :=
  match p.item with
  | .bsent _ _ => decide (p.slot = i)
  | _ => false

/-- A BSENT made pending: in the place of an earlier BSENT of the same part, else at the tail (R79,
R143). -/
def State.addBsent (s : State) (i : Slot) (l : LineId) (rem : Remaining) : State :=
  if s.reports.any fun p => p.isBsentOf i l then
    { s with reports := s.reports.map fun p => if p.isBsentOf i l then ⟨i, .bsent l rem⟩ else p }
  else s.addReport i (.bsent l rem)

/-- The BSENT of one part is discarded (R82). -/
def State.discardBsent (s : State) (i : Slot) (l : LineId) : State :=
  { s with reports := s.reports.filter fun p => !p.isBsentOf i l }

/-- Every BSENT of a record is discarded (R86, R150). -/
def State.discardBsents (s : State) (i : Slot) : State :=
  { s with reports := s.reports.filter fun p => !p.isBsent i }

/-- A record in REPORTING with no report pending is freed (R145). -/
def State.freeIfSpent (s : State) (i : Slot) : State :=
  match s.record i with
  | none => s
  | some r =>
    if r.state = .reporting ∧ ¬ s.reports.any (fun p => p.slot = i) then s.setRecord i none else s

/-- The work of a record ends: its load timer stops, its pages return, and it enters REPORTING (R137,
R149). A withdraw mark and a TAKE-waiting note end with the work (R47, R162). -/
def State.endWork (s : State) (i : Slot) : State :=
  (s.returnPages i).modRecord i fun r =>
    { r with state := .reporting, loadTimer := false, withdrawMark := false, takeWaiting := false }

/-! ## The transmit queue -/

/-- The precedence at which each of the card's frames enters (R172). -/
def Payload.precedence : Payload → Nat
  | .claim _ _ | .take _ => 2
  | .lineState _ _ _ => 3
  | .delivered _ | .returned _ _ | .refused _ _ | .withdrawn _ _ | .bsent _ _ _ => 4
  | .announce _ => 6
  | .cardStatus _ | .lineStatus _ => 7

def Queued.precedence (q : Queued) : Nat := q.frame.payload.precedence

/-- A frame takes its place: behind every frame of its precedence or a lower one (R172). -/
def enqueue (f : Frame) (q : List Queued) : List Queued :=
  q.takeWhile (fun e => e.precedence ≤ f.payload.precedence) ++ [⟨f, false⟩]
    ++ q.dropWhile (fun e => e.precedence ≤ f.payload.precedence)

/-- Whether an entry may be displaced by a frame offered at a precedence (R173). -/
def Queued.displaceable (p : Nat) (e : Queued) : Bool := !e.onWire && decide (p < e.precedence)

/-- The largest precedence among the entries a frame offered at `p` may displace; 0 where there is
none. -/
def worstPrecedence (p : Nat) (q : List Queued) : Nat :=
  ((q.filter (Queued.displaceable p)).map Queued.precedence).foldr max 0

/-- The index of the entry that a frame offered at `p` to a full queue displaces: the latest of the
largest precedence among those not on the wire with a precedence above `p` (R173). -/
def victim (p : Nat) (q : List Queued) : Option Nat :=
  (List.range q.length).reverse.find? fun j =>
    (q[j]?).any fun e => e.displaceable p && decide (e.precedence = worstPrecedence p q)

/-- The owner of a discarded frame is told: a discarded TAKE clears its key's TAKE-waiting note (R173,
R162). -/
def State.tellDiscard (s : State) (p : Payload) : State :=
  match p with
  | .take k =>
    match s.findKey k with
    | some i => s.modRecord i fun r => { r with takeWaiting := false }
    | none => s
  | _ => s

def State.bumpDiscarded (s : State) : State :=
  { s with counters := { s.counters with framesDiscarded := bump s.counters.framesDiscarded } }

/-- An immediate frame offered to the transmit queue, with the overflow rule (R172, R173). -/
def State.offerFrame (s : State) (f : Frame) : State :=
  if s.queue.length < Config.queueLimit then { s with queue := enqueue f s.queue }
  else
    match victim f.payload.precedence s.queue with
    | none => s.bumpDiscarded.tellDiscard f.payload
    | some j =>
      let out := (s.queue[j]?).map (·.frame.payload)
      let s' := { s.bumpDiscarded with queue := enqueue f (s.queue.eraseIdx j) }
      match out with
      | some p => s'.tellDiscard p
      | none => s'

/-- Whether an entry is a CLAIM of the card's for a key that is not on the wire. -/
def Queued.isUnsentClaim (k : Key) (e : Queued) : Bool :=
  match e.frame.payload with
  | .claim k' _ => !e.onWire && decide (k' = k)
  | _ => false

/-- The claim unit asks for the removal of the card's unsent CLAIMs for a key (R174). -/
def State.removeClaims (s : State) (k : Key) : State :=
  { s with queue := s.queue.filter fun e => !e.isUnsentClaim k }

/-! ## Handing reports -/

/-- The frame of a pending report: addressed to the key's station (R143, R79). -/
def reportFrame (s : State) (r : Record) (item : ReportItem) : Frame :=
  { dest := r.key.station
    payload :=
      match item with
      | .delivered => .delivered r.key
      | .returned reason => .returned r.key reason
      | .withdrawn cut => .withdrawn r.key cut
      | .refused reason => .refused r.key reason
      | .conflict => .refused r.key .conflict
      | .bsent l rem => .bsent r.key (s.lineConfig l).channel rem }

/-- The oldest pending report enters the transmit queue, where that holds 16 frames or fewer; the record
in REPORTING whose last report it was is freed (R144, R145). -/
def State.handReport (s : State) : State :=
  match s.reports with
  | [] => s
  | p :: rest =>
    if s.queue.length ≤ Config.reportLimit then
      match s.record p.slot with
      | none => { s with reports := rest }
      | some r =>
        { s with reports := rest, queue := enqueue (reportFrame s r p.item) s.queue }.freeIfSpent p.slot
    else s

/-- At most `fuel` reports handed, one after another. -/
def State.handMany : Nat → State → State
  | 0, s => s
  | fuel + 1, s => State.handMany fuel s.handReport

/-- Reports are handed one after another while the queue holds 16 frames or fewer (R144). -/
def State.handReports (s : State) : State := State.handMany s.reports.length s

end Sys2Proof.Machine
end

