-- ==== Sys2Proof/Machine/Flags.lean ====
section
/-! DEFINITION. What the card computes from its state without changing it: traffic, content and keeps
that the interleaver asks about, the quality figure, the fit estimate, the backlog, and the content of
the frames that report state. -/

namespace Sys2Proof.Machine

/-! ## The quality figure and the fit estimate -/

/-- The quality update: q − floor(q/16) + 4k, held at 255 (R122). -/
def qualityUpdate (q k : Nat) : Nat := min 255 (q - q / 16 + 4 * k)

/-- The sum r + ceil(r × q / 64) of R125. -/
def fitSum (r q : Nat) : Nat := r + ceilDiv (r * q) 64

/-- The fit estimate, held at 4095 (R125). -/
def fitEstimate (r q : Nat) : Nat := min 4095 (fitSum r q)

/-- Whether the fit estimate is saturated (R125). -/
def fitSaturated (r q : Nat) : Bool := decide (4095 < fitSum r q)

/-! ## Telex traffic -/

/-- The entry for a ship on a line's call list (R25). -/
def Line.entry? (x : Line) (ship : Nat) : Option Entry := x.callList.find? fun e => e.ship = ship

/-- Whether a line's circuit is the circuit of a ship. -/
def Line.worksFor (x : Line) (ship : Nat) : Bool := x.circuit.any fun c => c.ship = ship

/-- Whether the record in a slot is READY. -/
def State.isReady (s : State) (i : Slot) : Bool := (s.record i).any fun r => r.state = .ready

/-- Whether the record in a slot is ON-AIR. -/
def State.isOnAir (s : State) (i : Slot) : Bool := (s.record i).any fun r => r.state = .onAir

/-- Whether the record in a slot carries a withdraw mark. -/
def State.isMarked (s : State) (i : Slot) : Bool := (s.record i).any fun r => r.withdrawMark

/-- The oldest READY message of an entry (R36). -/
def State.oldestReady (s : State) (e : Entry) : Option Slot := e.messages.find? s.isReady

/-- The message a circuit sends next: its current message, or the oldest READY one of its entry (R36). -/
def State.nextMessage (s : State) (l : LineId) (c : Circuit) : Option Slot :=
  match c.current with
  | some i => some i
  | none => ((s.line l).entry? c.ship).bind s.oldestReady

/-- Whether a circuit has ready traffic (R40). -/
def State.readyTraffic (s : State) (l : LineId) (c : Circuit) : Bool := (s.nextMessage l c).isSome

/-- Whether an entry may be called, its line having no circuit (R27). -/
def State.isCallable (s : State) (e : Entry) : Bool :=
  decide (e.retryHold = 0) && (s.oldestReady e).isSome

/-- The first callable entry in call-list order, where the line has no circuit (R27). -/
def State.callable? (s : State) (l : LineId) : Option Entry :=
  match (s.line l).circuit with
  | none => (s.line l).callList.find? s.isCallable
  | some _ => none

/-- Whether a circuit is in an operation that is given every cycle (R107), CALLING apart. -/
def CircuitState.inOperation : CircuitState → Bool
  | .aligning | .identifying | .rephasing | .clearing => true
  | .calling | .linked | .parked => false

/-- Whether a circuit is LINKED or PARKED. -/
def CircuitState.inTraffic : CircuitState → Bool
  | .linked | .parked => true
  | .calling | .aligning | .identifying | .rephasing | .clearing => false

/-- Whether a forced keep is due on a circuit (R55). -/
def Circuit.forcedKeep (c : Circuit) (pk : Nat) : Bool :=
  decide (c.state = .parked) && decide (pk - 4 ≤ c.silenceCount)

/-- Whether an opportunistic keep is due on a circuit by its count (R57). -/
def Circuit.opportunisticKeep (c : Circuit) (pk : Nat) : Bool :=
  decide (c.state = .parked) && decide (pk / 2 ≤ c.silenceCount) && decide (c.silenceCount < pk - 4)

/-- Whether the cut notice takes the circuit's next cycle: the current message is marked, or the cut is
in hand (R46, R109). -/
def State.cutDue (s : State) (c : Circuit) : Bool := c.cut || (c.current.any s.isMarked)

/-! ## Bulletins -/

/-- Whether a slot's part on a line may be sent: QUEUED, of a READY record (R72, R73). -/
def State.sendable (s : State) (l : LineId) (i : Slot) : Bool :=
  s.isReady i && (s.part? i l).any fun p => p.state = .queued

/-- The first part of the cut-in queue that may be sent (R73). -/
def State.nextCutIn (s : State) (l : LineId) : Option Slot :=
  (s.line l).cutInQueue.find? (s.sendable l)

/-- The first part of the free queue that may be sent (R73). -/
def State.nextFree (s : State) (l : LineId) : Option Slot := (s.line l).freeQueue.find? (s.sendable l)

/-- The next part of the pass: sendable, and with pass-mark clear (R99). -/
def State.nextPass (s : State) (l : LineId) : Option Slot :=
  (s.line l).windowQueue.find? fun i => s.sendable l i && (s.part? i l).any fun p => !p.passMark

/-- Whether a slot's part on a line is ON-AIR. -/
def State.partOnAir (s : State) (l : LineId) (i : Slot) : Bool :=
  (s.part? i l).any fun p => p.state = .onAir

/-- The cut-in part on air on a line. -/
def State.cutInOnAir (s : State) (l : LineId) : Option Slot :=
  (s.line l).cutInQueue.find? (s.partOnAir l)

/-- The window or free part on air on a line. -/
def State.unitOnAir (s : State) (l : LineId) : Option Slot :=
  ((s.line l).windowQueue ++ (s.line l).freeQueue).find? (s.partOnAir l)

/-- The bulletin part on air on a line (R71). -/
def State.bulletinOnAir (s : State) (l : LineId) : Option Slot :=
  match s.cutInOnAir l with
  | some i => some i
  | none => s.unitOnAir l

/-- BTEXT cycles of a text (R74). -/
def textCycles (n : Nat) : Nat := ceilDiv n 6

/-- The cycle of the on-air form at a step (R74, R75). -/
def State.formCycle (s : State) (r : Record) (step : Nat) : Cycle :=
  if step ≤ 2 then .bhead r.key ((r.bulletin?.map (·.cls)).getD 0) r.n
  else if step ≤ textCycles r.n + 2 then
    .btext (s.readChars r (6 * (step - 3) + 1) (min 6 (r.n - 6 * (step - 3))))
  else .bend

/-! ## Content and lines -/

/-- Whether a line in REST has content (R10, R106). -/
def State.hasContent (s : State) (l : LineId) : Bool :=
  (s.line l).circuit.isSome || decide ((s.line l).window.state ≠ .closed) || (s.nextCutIn l).isSome
    || (s.nextFree l).isSome || (s.callable? l).isSome

/-- Whether a line's band is in the silenced set (R13). -/
def State.silencedLine (s : State) (l : LineId) : Bool :=
  s.silenced.getLsbD (s.lineConfig l).band.val

/-- The backlog of a line (R127). -/
def State.backlog (s : State) (l : LineId) : Nat :=
  ((s.line l).callList.map fun e =>
    (e.messages.map fun i => ((s.record i).map Record.remainingBlocks).getD 0).sum).sum

/-- The line of least backlog among some lines, the lowest number among equals (R128). -/
def State.leastBacklog (s : State) : List LineId → Option LineId
  | [] => none
  | l :: rest =>
    match s.leastBacklog rest with
    | none => some l
    | some m => if s.backlog l ≤ s.backlog m then some l else some m

/-- The line on whose call list a ship has its entry (R25). -/
def State.entryLine (s : State) (ship : Nat) : Option LineId :=
  lineIds.find? fun l => ((s.line l).entry? ship).isSome

/-- The line whose circuit is a ship's. -/
def State.circuitLine (s : State) (ship : Nat) : Option LineId :=
  lineIds.find? fun l => (s.line l).worksFor ship

/-- The line a taken message is placed on: the ship's circuit, its entry, the line of the band with least
backlog, or a STOPPED one of the band (R128, R129). -/
def State.chooseLine (s : State) (ship : Nat) (band : Band) : Option LineId :=
  match s.circuitLine ship with
  | some l => some l
  | none =>
    match s.entryLine ship with
    | some l => some l
    | none =>
      match s.leastBacklog (lineIds.filter fun l =>
          decide ((s.lineConfig l).band = band) && decide ((s.line l).mode ≠ .disabled)
            && decide ((s.line l).mode ≠ .stopped)) with
      | some l => some l
      | none => s.leastBacklog (lineIds.filter fun l =>
          decide ((s.lineConfig l).band = band) && decide ((s.line l).mode = .stopped))

/-- Ship entries in use on the card (R25). -/
def State.entriesUsed (s : State) : Nat := (lineIds.map fun l => (s.line l).callList.length).sum

/-- Free ship entries of the pool (R25). -/
def State.freeEntries (s : State) : Nat := Config.entryPool - s.entriesUsed

/-! ## What STATUS and ANNOUNCE carry -/

/-- The card STATUS of a state (R176). -/
def State.cardStatus (s : State) : CardStatus :=
  { fault := s.fault, timeValid := s.timeValid, badFrames := s.counters.badFrames
    rankRefused := s.counters.rankRefused, framesDiscarded := s.counters.framesDiscarded
    claimsWon := s.counters.claimsWon, claimsLost := s.counters.claimsLost
    freeSlots := s.freeSlotCount, freePages := s.freePages.length, openWindows := s.claims.length
    silenced := s.silenced, minute := s.minute.val }

/-- The line STATUS of a state (R176, R23). -/
def State.lineStatus (s : State) (l : LineId) : LineStatus :=
  let x := s.line l
  { line := l, mode := x.mode, circuit := x.circuit.map (·.state)
    ship := (x.circuit.map (·.ship)).getD 0, q := (x.circuit.map (·.q)).getD 0
    lastEst := x.window.lastEst, estSaturated := x.window.estSaturated
    cutInLength := x.cutInQueue.length, windowLength := x.windowQueue.length
    freeLength := x.freeQueue.length, counters := x.counters }

/-- The channel an ANNOUNCE carries for a line: CHANNEL where the line is not DISABLED, else 0 (R181). -/
def State.announcedChannel (s : State) (l : LineId) : Fin 1024 :=
  if (s.line l).mode = .disabled then 0 else Fin.ofNat 1024 (s.lineConfig l).channel

/-- The card's own ANNOUNCE with its current values (R181; in FAULT, R179). -/
def State.announcement (s : State) (reply restarted : Bool) : Announcement :=
  if s.fault then
    { fault := true, timeValid := false, reply := reply, restarted := restarted
      channels := Vector.replicate 4 0, minute := 0, silenced := 0 }
  else
    { fault := false, timeValid := s.timeValid, reply := reply, restarted := restarted
      channels := vecOf 4 s.announcedChannel, minute := s.minute.castLE (by decide)
      silenced := s.silenced }

end Sys2Proof.Machine
end

