-- ==== Sys2Proof/Machine/Entries.lean ====
section
/-! DEFINITION. Ship entries and the ends of telex messages: how a message leaves its entry, how a failed
attempt is counted, and how a telex record's work ends (R25 to R29, R149). -/

namespace Sys2Proof.Machine

/-! ## Ship entries -/

/-- Changes the entry of a ship on a line's call list, in its place. -/
def State.modEntry (s : State) (l : LineId) (ship : Nat) (f : Entry → Entry) : State :=
  s.modLine l fun x =>
    { x with callList := x.callList.map fun e => if e.ship = ship then f e else e }

/-- Frees the entry of a ship: it leaves the call list (R28). -/
def State.freeEntry (s : State) (l : LineId) (ship : Nat) : State :=
  s.modLine l fun x => { x with callList := x.callList.filter fun e => e.ship ≠ ship }

/-- Frees the entry of a ship where it holds no message. -/
def State.freeEmptyEntry (s : State) (l : LineId) (ship : Nat) : State :=
  s.modLine l fun x =>
    { x with callList := x.callList.filter fun e => !(decide (e.ship = ship) && e.messages.isEmpty) }

/-- Moves the entry of a ship, changed, to the tail of the call list. -/
def State.entryToTail (s : State) (l : LineId) (ship : Nat) (f : Entry → Entry) : State :=
  s.modLine l fun x =>
    match x.entry? ship with
    | none => x
    | some e => { x with callList := x.callList.filter (fun e' => e'.ship ≠ ship) ++ [f e] }

/-- Moves the entry of a ship, changed, to the head of the call list. -/
def State.entryToHead (s : State) (l : LineId) (ship : Nat) (f : Entry → Entry) : State :=
  s.modLine l fun x =>
    match x.entry? ship with
    | none => x
    | some e => { x with callList := f e :: x.callList.filter fun e' => e'.ship ≠ ship }

/-- A message leaves its entry's FIFO; an entry left empty whose ship has no circuit is freed, and any
other keeps its place (R28). -/
def State.leaveEntry (s : State) (i : Slot) : State :=
  match (s.record i).bind Record.telex? with
  | some t =>
    match t.line with
    | some l =>
      let s' := s.modEntry l t.ship fun e => { e with messages := e.messages.erase i }
      if (s.line l).worksFor t.ship then s' else s'.freeEmptyEntry l t.ship
    | none => s
  | none => s

/-! ## The end of a telex record's work -/

/-- A telex message is finished with a final report: pages return, the message leaves its entry, and the
report is pending (R149). -/
def State.finishTelex (s : State) (i : Slot) (item : ReportItem) : State :=
  ((s.endWork i).leaveEntry i).addReport i item

/-- A telex record is dropped with no report: pages return, the message leaves its entry and the record
is freed (R149, R163). -/
def State.dropTelex (s : State) (i : Slot) : State :=
  ((s.returnPages i).leaveEntry i).setRecord i none

/-- Every message of a list is given RETURNED, in order (R29, R149, R183). Their pages join the free list in the
same order, at a third failed attempt by the model's choice (DESIGN CHOICE, log 22). -/
def State.returnMessages (s : State) (reason : Reason) : List Slot → State
  | [] => s
  | i :: rest => ((s.endWork i).addReport i (.returned reason)).returnMessages reason rest

/-- A failed attempt is counted against an entry (R29): at 3 its messages are returned and it is freed;
below 3 it waits 60 boundaries at the tail, or is freed where it is empty. -/
def State.countAttempt (s : State) (l : LineId) (ship : Nat) (reason : Reason) : State :=
  match (s.line l).entry? ship with
  | none => s
  | some e =>
    if Config.attemptLimit ≤ e.attempts + 1 then (s.freeEntry l ship).returnMessages reason e.messages
    else if e.messages.isEmpty then s.freeEntry l ship
    else s.entryToTail l ship fun e =>
      { e with attempts := e.attempts + 1, retryHold := Config.retryHold, lastFailure := some reason }

/-! ## Placement -/

/-- A taken message joins its ship's entry on a line, or a new entry at the tail of the call list; nothing
where neither is there (R26). -/
def State.placeMessage (s : State) (l : LineId) (i : Slot) (ship : Nat) (band : Band) :
    Option State :=
  match (s.line l).entry? ship with
  | some _ =>
    let closing := (s.line l).circuit.any fun c => c.ship = ship && c.state = .clearing
    some (s.modEntry l ship fun e =>
      { e with messages := e.messages ++ [i], recalled := e.recalled || closing })
  | none =>
    if s.freeEntries = 0 then none
    else some (s.modLine l fun x =>
      { x with callList := x.callList ++
          [{ ship := ship, band := band, messages := [i], attempts := 0, retryHold := 0
             recalled := false, lastFailure := none }] })

end Sys2Proof.Machine
end

