-- ==== Sys2Proof/Machine/Bulletins.lean ====
section
/-! DEFINITION. The bulletin unit and the window state it serves: parts and their queues, sendings, their
completion and abandonment, withdrawal and retirement (chapter 04), and the pass of an open window with
its units and its closing (chapter 05). -/

namespace Sys2Proof.Machine

/-! ## Parts and queues -/

/-- Takes a slot out of the bulletin queues of a line. -/
def State.leaveQueues (s : State) (l : LineId) (i : Slot) : State :=
  s.modLine l fun x =>
    { x with cutInQueue := x.cutInQueue.erase i, windowQueue := x.windowQueue.erase i
             freeQueue := x.freeQueue.erase i }

/-- Takes a slot out of the bulletin queues of every line. -/
def State.leaveAllQueues (s : State) (i : Slot) : State :=
  lineIds.foldl (fun t l => t.leaveQueues l i) s

/-- The class index of the record in a slot, for the order of a window queue. -/
def State.classOf (s : State) (i : Slot) : Nat :=
  (((s.record i).bind Record.bulletin?).map fun b => b.cls.val).getD 0

/-- A window part joins behind every part of its class index or a lower one (R70). -/
def State.joinByClass (s : State) (cls : Nat) (i : Slot) (q : List Slot) : List Slot :=
  q.takeWhile (fun j => s.classOf j ≤ cls) ++ [i] ++ q.dropWhile (fun j => s.classOf j ≤ cls)

/-- A part joins the queue of its class type on its line (R69). -/
def State.joinQueue (s : State) (l : LineId) (i : Slot) (kind : ClassType) (cls : Nat) : State :=
  s.modLine l fun x =>
    match kind with
    | .cutIn => { x with cutInQueue := x.cutInQueue ++ [i] }
    | .window => { x with windowQueue := s.joinByClass cls i x.windowQueue }
    | .free => { x with freeQueue := x.freeQueue ++ [i] }
    | .closed => x

def State.modPart (s : State) (i : Slot) (l : LineId) (f : Part → Part) : State :=
  s.modRecord i fun r => r.modPart l f

/-! ## Turns and the window's units -/

/-- The turn in progress ends (R114, R115). -/
def Arbiter.endTurn (a : Arbiter) : Arbiter :=
  { a with turn := .noTurn, turnCycles := 0, bBegun := false }

/-- A B turn in progress ends (R115). -/
def Arbiter.endBTurn (a : Arbiter) : Arbiter :=
  match a.turn with
  | .bulletin => a.endTurn
  | .noTurn => a
  | .telex => a

/-- The pass-mark of every part in a line's window queue is cleared (R101). -/
def State.clearPassMarks (s : State) (l : LineId) : State :=
  (s.line l).windowQueue.foldl (fun t i => t.modPart i l fun p => { p with passMark := false }) s

/-- A window closes (R101); a B turn ends with it (R115). -/
def State.closeWindow (s : State) (l : LineId) : State :=
  (s.clearPassMarks l).modLine l fun x =>
    { x with window := { x.window with state := .closed, unitsEnded := false }
             arbiter := x.arbiter.endBTurn }

/-- A window unit ends: units-ended is set, a B turn ends, and the window closes where the pass has no
part left (R101, R115). -/
def State.unitEnds (s : State) (l : LineId) : State :=
  if (s.line l).window.state = .isOpen then
    let s' := s.modLine l fun x =>
      { x with window := { x.window with unitsEnded := true }, arbiter := x.arbiter.endBTurn }
    match s'.nextPass l with
    | some _ => s'
    | none => s'.closeWindow l
  else s

/-- What an open window answers when it is asked for a unit (R99). -/
inductive WindowAnswer
  | part (i : Slot)
  | notice
  | nothing
  deriving DecidableEq, Repr

def State.askWindow (s : State) (l : LineId) : WindowAnswer :=
  match s.nextPass l with
  | some i => .part i
  | none => if (s.line l).window.unitsEnded then .nothing else .notice

/-- A notice run is dropped with no cycle of its own (R100). -/
def State.dropNotice (s : State) (l : LineId) : State :=
  s.modWindow l fun w => { w with noticeStep := 0 }

/-- The end of an ON-AIR message is made known to the line's window: a deferral for it ends (R98). The window
knows the message by its slot alone (R94; DEDUCED, log 37). -/
def State.endOfMessage (s : State) (l : LineId) (i : Slot) : State :=
  s.modWindow l fun w =>
    if w.state = .openDeferred ∧ w.deferredFor = some i then
      { w with state := .isOpen, deferredFor := none }
    else w

/-! ## Withdrawal and retirement -/

/-- A withdrawal is finished: pages return, every BSENT is discarded, and the record reports WITHDRAWN,
cut where a part was counted as cut (R86). -/
def State.finishWithdrawal (s : State) (i : Slot) : State :=
  let cut := (((s.record i).bind Record.bulletin?).map (·.cutCounted)).getD false
  ((s.endWork i).discardBsents i).addReport i (.withdrawn cut)

/-- Finishes the withdrawal of a marked record whose last part is gone (R86). -/
def State.finishIfWithdrawn (s : State) (i : Slot) : State :=
  match s.record i with
  | none => s
  | some r => if r.withdrawMark ∧ r.parts = [] then s.finishWithdrawal i else s

/-- A part of a marked record is removed from its queue and its record, counted as cut or not; the
withdrawal is finished with the last (R84, R85, R86). -/
def State.withdrawPart (s : State) (i : Slot) (l : LineId) (cut : Bool) : State :=
  (((s.leaveQueues l i).modRecord i fun r =>
      (r.dropPart l).modBulletin fun b => { b with cutCounted := b.cutCounted || cut })
    ).finishIfWithdrawn i

/-- A record whose parts are all DONE and which no withdrawal waits for is retired: its pages return and it
waits in REPORTING for its pending reports, or is freed at once (R78). -/
def State.retireIfDone (s : State) (i : Slot) : State :=
  match s.record i with
  | none => s
  | some r =>
    if r.withdrawMark ∨ r.parts = [] ∨ r.parts.any (fun p => p.state ≠ .done) then s
    else (s.endWork i).freeIfSpent i

/-! ## Sendings -/

/-- A sending begins: the part enters ON-AIR and the first BHEAD is handed (R74). -/
def State.beginSending (s : State) (l : LineId) (i : Slot) : State × Cycle :=
  let s' := s.modPart i l fun p => { p with state := .onAir, formStep := 1 }
  match s.record i with
  | some r => (s', s.formCycle r 1)
  | none => (s', .filler)

/-- The next cycle of the on-air form is handed (R74). -/
def State.continueSending (s : State) (l : LineId) (i : Slot) : State × Cycle :=
  let step := ((s.part? i l).map (·.formStep)).getD 0 + 1
  let s' := s.modPart i l fun p => { p with formStep := step }
  match s.record i with
  | some r => (s', s.formCycle r step)
  | none => (s', .filler)

/-- One sending less to make, unless the part is STANDING (R76). -/
def Remaining.less : Remaining → Remaining
  | .times n => .times (n - 1)
  | .standing => .standing

/-- The part of an abandoned sending: QUEUED, to be restarted from its beginning, unmarked (R80, R81). -/
def Part.abandoned (p : Part) : Part := { p with state := .queued, formStep := 0, passMark := false }

/-- The part of a completed sending (R76, R77): a window part keeps its place with its pass-mark set. -/
def Part.completed (p : Part) (kind : ClassType) : Part :=
  { p with
    remaining := p.remaining.less, formStep := 0
    state := if p.remaining.less = .times 0 then .done else .queued
    passMark := decide (kind = .window) && decide (p.remaining.less ≠ .times 0) }

/-- A completed part's place in its queue: gone when DONE, else the tail, or its own place in the window
queue (R76, R77). -/
def State.requeue (s : State) (l : LineId) (i : Slot) (kind : ClassType) (finished : Bool) : State :=
  if finished then s.leaveQueues l i
  else
    match kind with
    | .window => s
    | .cutIn => (s.leaveQueues l i).joinQueue l i .cutIn 0
    | .free => (s.leaveQueues l i).joinQueue l i .free 0
    | .closed => s

/-- A sending completes at the boundary that ends its BEND (R76 to R79, R101). -/
def State.completeSending (s : State) (l : LineId) (i : Slot) : State :=
  match s.part? i l, (s.record i).bind Record.bulletin? with
  | some p, some b =>
    let left := p.remaining.less
    let s1 := s.modPart i l fun p => p.completed b.kind
    let s2 := s1.requeue l i b.kind (left = .times 0)
    let s3 := s2.modCounters l fun c => { c with bulletinSendings := bump c.bulletinSendings }
    let s4 := s3.addBsent i l left
    let s5 := if b.kind = .window then s4.unitEnds l else s4
    s5.retireIfDone i
  | _, _ => s

/-- A free part moves to the head of the free queue; parts of the other queues keep their places (R80, R81,
R119; log 17). -/
def State.restartFirst (s : State) (l : LineId) (i : Slot) : State :=
  s.modLine l fun x =>
    if x.freeQueue.contains i then { x with freeQueue := i :: x.freeQueue.erase i } else x

/-- The bulletin on air is abandoned: its part is QUEUED again, unmarked, and a free part is the first of its
queue (R80, R81, R119). -/
def State.abandonSending (s : State) (l : LineId) (i : Slot) : State :=
  (s.modPart i l Part.abandoned).restartFirst l i

/-- The bulletin on air is abandoned as its line stops keying: back to its queue, or removed and counted as
cut where its record is marked (R81, R85). -/
def State.stopSending (s : State) (l : LineId) (i : Slot) : State :=
  if s.isMarked i then s.withdrawPart i l true else s.abandonSending l i

/-- A withdraw cut: the part on air is removed and counted as cut, and BBROKEN is handed; a window part
ends its window unit (R85, R101, R109). -/
def State.breakSending (s : State) (l : LineId) (i : Slot) : State × Cycle :=
  let inWindow := (s.line l).windowQueue.contains i
  let s' := s.withdrawPart i l true
  (if inWindow then s'.unitEnds l else s', .bbroken)

/-- The per-boundary removal on one line of one slot's QUEUED or DONE part, where its record is marked
(R84). -/
def State.removeWithdrawn (s : State) (l : LineId) (i : Slot) : State :=
  if s.isMarked i && (s.part? i l).any (fun p => p.state ≠ .onAir) then s.withdrawPart i l false else s

/-! ## A conflict -/

/-- A late conflict removes a line's part from one record (R82): its BSENT is discarded; REFUSED(CONFLICT)
is made pending for an unmarked record, and a part of a marked one is counted as cut (R183). A record left
with no part ends its work, and one whose parts are all DONE is retired in the same event: its pages return
and it waits in REPORTING for its reports (DEDUCED, log 36). -/
def State.conflictPart (s : State) (l : LineId) (i : Slot) : State :=
  match s.record i, s.part? i l with
  | some r, some _ =>
    let s1 := s.discardBsent i l
    if r.withdrawMark then s1.withdrawPart i l true
    else
      let s2 := (s1.leaveQueues l i).modRecord i fun r => r.dropPart l
      let s3 := if s2.reports.any (fun q => q.slot = i && q.item = .conflict) then s2
        else s2.addReport i .conflict
      if (r.dropPart l).parts = [] then s3.endWork i else s3.retireIfDone i
  | _, _ => s

end Sys2Proof.Machine
end

