-- ==== Sys2Proof/Machine/Operands.lean ====
section
/-! DEFINITION. The operands of a received frame: the checks the bus port makes on a frame's header and
payload before its owner acts on it (R168 to R171). -/

namespace Sys2Proof.Machine

/-- What the receive half decides of a frame (R168, R171). -/
inductive Reception
  /-- A check of 1 to 4 fails: discarded, and bad-frames increases. -/
  | bad
  /-- Check 5 fails: ignored without count. The port of a card whose read has not ended hears nothing. -/
  | ignored
  /-- Check 6 fails: ignored, and rank-refused increases. -/
  | refused
  /-- The checks pass, and the card in FAULT drops the frame without count. -/
  | dropped
  /-- The frame is handed to its owner. -/
  | taken
  deriving DecidableEq, Repr

/-- The rank of a source station: its entry in the rank map, or 0 in FAULT (R170, R171). -/
def State.rank (s : State) (source : Station) : Fin 4 :=
  if s.fault then 0 else s.config.rankMap[source]

/-- Check 5: the destinations at which each kind is taken (R169). -/
def State.destinationTaken (s : State) (k : FrameKind) (dest : Station) : Bool :=
  match k with
  | .claim | .take | .text | .announce => true
  | .offer | .post | .withdraw | .time | .silence | .resume | .stopLine | .startLine | .patternOn
  | .patternOff => dest = s.strap || dest = allStations
  | .statusQuery | .restart => dest = s.strap
  | .delivered | .returned | .refused | .withdrawn | .bsent | .lineState | .status => false

/-- Check 6: the rank or the source each kind requires (R170); `poster` is the key's station of a TEXT or
WITHDRAW. -/
def State.sourceAllowed (s : State) (k : FrameKind) (source poster : Station) : Bool :=
  match k with
  | .silence | .resume | .stopLine | .startLine | .restart => s.rank source = 0
  | .patternOn | .patternOff | .time => s.rank source ≤ 1
  | .offer | .statusQuery => s.rank source ≤ 2
  | .withdraw => source = poster || s.rank source = 0
  | .text => source = poster
  | .post | .claim | .take | .announce => true
  | .delivered | .returned | .refused | .withdrawn | .bsent | .lineState | .status => true

/-- The kinds handed on in FAULT (R171). -/
def handedInFault : FrameKind → Bool
  | .statusQuery | .announce => true
  | _ => false

/-- The decision on a frame that passed checks 1 and 2, in the order of R168; `lengthOk` is check 3. -/
def State.reception (s : State) (k : FrameKind) (h : Header) (poster : Station) (lengthOk : Bool) :
    Reception :=
  if s.phase = .reading then .ignored
  else if !lengthOk then .bad
  else if h.source = allStations then .bad
  else if !s.destinationTaken k h.dest then .ignored
  else if !s.sourceAllowed k h.source poster then .refused
  else if s.fault && !handedInFault k then .dropped
  else .taken

def State.bumpBad (s : State) : State :=
  { s with counters := { s.counters with badFrames := bump s.counters.badFrames } }

def State.bumpRefused (s : State) : State :=
  { s with counters := { s.counters with rankRefused := bump s.counters.rankRefused } }

/-- A frame received: the port's decision, and the owner's act on a frame taken (R168, R171). -/
def State.receive (s : State) (k : FrameKind) (h : Header) (poster : Station) (lengthOk : Bool)
    (act : State → State) : State :=
  match s.reception k h poster lengthOk with
  | .bad => s.bumpBad
  | .ignored => s
  | .refused => s.bumpRefused
  | .dropped => s
  | .taken => act s

end Sys2Proof.Machine
end

