-- ==== Sys2Proof/Machine/Store.lean ====
section
/-! DEFINITION. The message store and the claim unit: loading text, refusals during loading, withdrawal,
offers, claims, takes and their collisions, and the commands that bring them (chapters 08 and 09). -/

namespace Sys2Proof.Machine

/-! ## Loading -/

/-- Every part of a bulletin record is removed from its queue and its record (R72, R83, R87). -/
def State.removeParts (s : State) (i : Slot) : State :=
  (s.leaveAllQueues i).modRecord i fun r => r.modBulletin fun b => { b with parts := [] }

/-- A LOADING record's work ends with a final report: pages return, and a telex message leaves its entry or
a bulletin's parts their queues (R142, R148, R83). -/
def State.endLoading (s : State) (i : Slot) (item : ReportItem) : State :=
  match s.record i with
  | none => s
  | some r =>
    match r.body with
    | .telex _ => s.finishTelex i item
    | .bulletin _ => ((s.endWork i).removeParts i).addReport i item

/-- The expected length of a record's next chunk (R139). -/
def Record.expectedChunk (r : Record) : Nat := min Config.chunkSize (r.n - Config.chunkSize * r.nextSeq)

/-- A record with a chunk of `size` characters stored: pages move from reserved to the page-list, and it is
READY, its timer stopped, once loaded reaches n; else the timer starts again (R139, R140, R141). -/
def Record.withChunk (r : Record) (size : Nat) : Record :=
  let moved := pagesFor (r.loaded + size) - r.pageList.length
  { r with
    loaded := r.loaded + size, nextSeq := r.nextSeq + 1
    pageList := r.pageList ++ r.reserved.take moved, reserved := r.reserved.drop moved
    state := if r.loaded + size = r.n then .ready else r.state
    loadTimer := decide (r.loaded + size ≠ r.n) }

/-- A chunk is stored (R139). -/
def State.storeChunk (s : State) (i : Slot) (r : Record) (chunk : List Byte) : State :=
  let r' := r.withChunk chunk.length
  { s with text := writeChars r'.pageList s.text (r.loaded + 1) chunk }.setRecord i (some r')

/-- A TEXT taken for loading: stored, ignored as a duplicate, or refused as a gap (R139). -/
def State.loadChunk (s : State) (i : Slot) (r : Record) (seq : Nat) (chunk : List Byte) : State :=
  if seq < r.nextSeq then s
  else if seq = r.nextSeq ∧ chunk.length = r.expectedChunk then s.storeChunk i r chunk
  else (s.endLoading i (.refused .textGap)).handReports

/-- A taken record is dropped: by a take collision, or by a TEXT to another station (R163, R164). -/
def State.dropTaken (s : State) (i : Slot) : State := (s.dropTelex i).bumpLost

/-- A TEXT frame by its key, its record and its destination (R138, R164). -/
def State.takeText (s : State) (h : Header) (key : Key) (seq : Nat) (chunk : List Byte) : State :=
  match s.findKey key with
  | none => s
  | some i =>
    match s.record i with
    | none => s
    | some r =>
      if r.state = .loading then
        match r.body with
        | .telex _ =>
          if h.dest = s.strap then s.loadChunk i r seq chunk
          else if h.dest = allStations then s
          else s.dropTaken i
        | .bulletin _ => if h.dest = allStations then s.loadChunk i r seq chunk else s
      else s

/-- TEXT (R138). A chunk outside 1–48 characters is a length the kind does not have (R168, check 3). -/
def execText (h : Header) (key : Key) (seq : Fin 256) (chunk : List Byte) (s : State) :
    Host.Outcome State Fault Refusal :=
  .next (s.receive .text h key.station (1 ≤ chunk.length && chunk.length ≤ 48) fun s =>
    s.takeText h key seq.val chunk)

/-- The record under a key, with its slot. -/
def State.recordUnder (s : State) (k : Key) : Option (Slot × Record) :=
  (s.findKey k).bind fun i => (s.record i).map fun r => (i, r)

/-- LOAD_TIMER_EXPIRY (R141, R142). A key without a running load timer has none to expire. -/
def execLoadTimerExpiry (key : Key) (s : State) : Host.Outcome State Fault Refusal :=
  .next (match s.recordUnder key with
    | some (i, r) =>
      if r.state = .loading ∧ r.loadTimer = true then
        (s.endLoading i (.refused .textTimeout)).handReports
      else s
    | none => s)

/-- REPORT_HANDED (R144). -/
def execReportHanded (s : State) : Host.Outcome State Fault Refusal := .next s.handReport

/-! ## The end of a claim -/

/-- The card's part in a claim ends without a take: the CLAIMING record is freed, its pages return, the
window is removed, and claims-lost increases (R158, R160, R161, R148). -/
def State.endClaim (s : State) (k : Key) (i : Slot) : State :=
  { (s.returnPages i).setRecord i none with
    claims := s.claims.filter fun w => w.key ≠ k }.bumpLost

/-- A window ends with the card's CLAIM removed from the queue where it has not been seen (R160, R161). -/
def State.abortClaim (s : State) (w : ClaimWindow) : State :=
  (if w.noted then s else s.removeClaims w.key).endClaim w.key w.slot

/-- A bad CRC makes the card withdraw from every open window (R160), in the order of their opening (DESIGN
CHOICE, log 22). -/
def State.abortAllClaims (s : State) : State :=
  (s.claims.foldl (fun t w => t.abortClaim w) s).handReports

/-! ## Withdrawal -/

/-- A WITHDRAW taken acts by the kind and state of the record (R147, R148, R46, R83). -/
def State.withdrawRecord (s : State) (i : Slot) (r : Record) : State :=
  match r.body with
  | .telex _ =>
    match r.state with
    | .claiming => s.endClaim r.key i
    | .loading | .ready => (s.finishTelex i (.withdrawn false)).handReports
    | .onAir => s.modRecord i fun r => { r with withdrawMark := true }
    | .reporting => s
  | .bulletin _ =>
    match r.state with
    | .loading => (s.endLoading i (.withdrawn false)).handReports
    | .ready => s.modRecord i fun r => { r with withdrawMark := true }
    | .claiming | .onAir | .reporting => s

/-- WITHDRAW (R147, R83). -/
def execWithdraw (h : Header) (key : Key) (s : State) : Host.Outcome State Fault Refusal :=
  .next (s.receive .withdraw h key.station true fun s =>
    match s.recordUnder key with
    | some (i, r) => s.withdrawRecord i r
    | none => s)

/-! ## Offers -/

/-- Whether a line of a band is usable for an OFFER (R154). -/
def State.usableLine (s : State) (band : Band) (l : LineId) : Bool :=
  decide ((s.lineConfig l).band = band) && decide ((s.line l).mode ≠ .disabled)
    && decide ((s.line l).mode ≠ .stopped)

/-- Open windows that count on a new entry (R156). -/
def State.entriesPromised (s : State) : Nat := (s.claims.filter fun w => w.needsEntry).length

/-- The conditions of R154 but the store's. -/
def State.mayClaim (s : State) (ship n : Nat) (band : Band) : Bool :=
  decide (n ≠ 0) && decide (ship ≠ 0) && decide (ship ≤ Config.shipLimit)
    && lineIds.any (s.usableLine band) && decide (s.claims.length < Config.claimLimit)
    && ((s.entryLine ship).isSome || decide (s.entriesPromised < s.freeEntries))

/-- The card's grade for an OFFER (R155). -/
def State.gradeFor (s : State) (ship : Nat) (band : Band) : Fin 4 :=
  if lineIds.any fun l => (s.line l).circuit.any fun c => c.ship = ship && c.state ≠ .clearing then 0
  else if (s.entryLine ship).isSome then 1
  else if lineIds.any fun l =>
      decide ((s.lineConfig l).band = band) && (s.line l).circuit.isNone && (s.line l).callList.isEmpty
        && (decide ((s.line l).mode = .rest) || decide ((s.line l).mode = .active)) then 2
  else 3

/-- An OFFER evaluated afresh (R154). -/
def State.evaluateOffer (s : State) (key : Key) (ship n : Nat) (band : Band) (clearAfter : Bool) :
    State :=
  if s.mayClaim ship n band then
    match s.createRecord key n .claiming false
        (.telex { ship := ship, band := band, clearAfter := clearAfter, ackCount := 0, line := none }) with
    | none => s
    | some (i, s') =>
      let grade := s.gradeFor ship band
      let s1 : State :=
        { s' with claims := s'.claims ++ [{ key := key, slot := i, ownGrade := grade, noted := false
                                            best := none, needsEntry := (s.entryLine ship).isNone }] }
      s1.offerFrame { dest := allStations, payload := .claim key grade }
  else s

/-- A TAKE for a key is queued for its poster, and noted as waiting for its echo (R159, R162). -/
def State.sendTake (s : State) (key : Key) (i : Slot) : State :=
  (s.modRecord i fun r => { r with takeWaiting := true }).offerFrame
    { dest := key.station, payload := .take key }

/-- An OFFER taken, by who holds its key (R153). -/
def State.takeOffer (s : State) (key : Key) (ship n : Nat) (band : Band) (clearAfter : Bool) : State :=
  match s.recordUnder key with
  | none => s.evaluateOffer key ship n band clearAfter
  | some (i, r) =>
    match r.body with
    | .bulletin _ => s
    | .telex _ =>
      match r.state with
      | .claiming | .reporting => s
      | .loading | .ready | .onAir => if r.takeWaiting then s else s.sendTake key i

/-- OFFER (R153). -/
def execOffer (h : Header) (number : MsgNumber) (ship : Fin 131072) (n : Fin 8192) (band : Band)
    (clearAfter : Bool) (s : State) : Host.Outcome State Fault Refusal :=
  .next (s.receive .offer h h.source true fun s =>
    s.takeOffer ⟨h.source, number⟩ ship.val n.val band clearAfter)

/-! ## Claim windows -/

/-- Whether a claim is better than the best noted so far (R157). -/
def NotedClaim.betterThan (c : NotedClaim) : Option NotedClaim → Bool
  | none => true
  | some b => decide (c.grade < b.grade) || (decide (c.grade = b.grade) && decide (c.station < b.station))

/-- A window with a claim noted (R157); the card's own echo makes own-claim NOTED. -/
def ClaimWindow.note (w : ClaimWindow) (c : NotedClaim) (own : Station) : ClaimWindow :=
  { w with
    best := if c.betterThan w.best then some c else w.best
    noted := w.noted || decide (c.station = own) }

/-- CLAIM (R157). -/
def execClaim (h : Header) (key : Key) (grade : Fin 4) (s : State) : Host.Outcome State Fault Refusal :=
  .next (s.receive .claim h h.source true fun s =>
    { s with claims := s.claims.map fun w =>
        if w.key = key then w.note ⟨grade, h.source⟩ s.strap else w })

/-- A card that has won takes the message, or abandons the claim where no line or no entry is there
(R159). -/
def State.takeMessage (s : State) (w : ClaimWindow) : State :=
  match (s.record w.slot).bind Record.telex? with
  | none => s.endClaim w.key w.slot
  | some t =>
    match s.chooseLine t.ship t.band with
    | none => s.endClaim w.key w.slot
    | some l =>
      match s.placeMessage l w.slot t.ship t.band with
      | none => s.endClaim w.key w.slot
      | some s1 =>
        let s2 := s1.modRecord w.slot fun r =>
          { r.modTelex (fun t => { t with line := some l }) with state := .loading, loadTimer := true }
        let s3 := { s2 with claims := s2.claims.filter fun v => v.key ≠ w.key }
        let s4 := s3.sendTake w.key w.slot
        { s4 with counters := { s4.counters with claimsWon := bump s4.counters.claimsWon } }

/-- The resolution of a window (R158). -/
def State.resolveClaim (s : State) (w : ClaimWindow) : State :=
  if !w.noted then (s.abortClaim w).handReports
  else if w.best.any fun b => b.station = s.strap then s.takeMessage w
  else s.endClaim w.key w.slot

/-- CLAIM_WINDOW_EXPIRY (R158). A key without an open window has no timer to expire. -/
def execClaimWindowExpiry (key : Key) (s : State) : Host.Outcome State Fault Refusal :=
  .next (match s.claims.find? fun w => w.key = key with
    | some w => s.resolveClaim w
    | none => s)

/-- A TAKE from another station, by the state of the card's record for the key (R161, R163). -/
def State.takeFromOther (s : State) (source : Station) (key : Key) : State :=
  match s.recordUnder key with
  | none => s
  | some (i, r) =>
    match r.body with
    | .bulletin _ => s
    | .telex _ =>
      match r.state with
      | .claiming =>
        match s.claims.find? fun w => w.key = key with
        | some w => (s.abortClaim w).handReports
        | none => s
      | .loading => if r.nextSeq = 0 ∧ source < s.strap then s.dropTaken i else s
      | .ready | .onAir | .reporting => s

/-- The card's own echo of a TAKE clears the key's TAKE-waiting note (R162). -/
def State.takeEcho (s : State) (key : Key) : State :=
  match s.findKey key with
  | some i => s.modRecord i fun r => { r with takeWaiting := false }
  | none => s

/-- TAKE_RECEIVED (R163, R162). -/
def execTakeReceived (h : Header) (key : Key) (s : State) : Host.Outcome State Fault Refusal :=
  .next (s.receive .take h h.source true fun s =>
    if h.source = s.strap then s.takeEcho key else s.takeFromOther h.source key)

end Sys2Proof.Machine
end

