-- ==== Sys2Proof/Machine/Port.lean ====
section
/-! DEFINITION. The office bus port: contention and sending, bad and ignored frames, and STATUS (chapter
10). The bus is idle at a CONTENTION, and the bits read back are as the command's name says. -/

namespace Sys2Proof.Machine

/-- The queue with its first frame on the wire. -/
def startSending : List Queued → List Queued
  | [] => []
  | e :: rest => { e with onWire := true } :: rest

/-- The queue with no frame on the wire, its frames in their places. -/
def stopSending (q : List Queued) : List Queued := q.map fun e => { e with onWire := false }

/-- CONTENTION (R166): with no frame of the card's on the wire and a queue that is not empty, the first frame
in queue order goes on the wire. -/
def execContention (s : State) : Host.Outcome State Fault Refusal :=
  .next (if s.queue.any (·.onWire) then s else { s with queue := startSending s.queue })

/-- CONTENTION_LOST (R166). -/
def execContentionLost (s : State) : Host.Outcome State Fault Refusal :=
  .next { s with queue := stopSending s.queue }

/-- SENDING_CUT_SHORT (R167). -/
def execSendingCutShort (s : State) : Host.Outcome State Fault Refusal :=
  .next { s with queue := stopSending s.queue }

/-- SENDING_COMPLETE (R167, R144): the frame on the wire leaves the queue, and the store hands reports. -/
def execSendingComplete (s : State) : Host.Outcome State Fault Refusal :=
  .next (if s.queue.any (·.onWire) then
      { s with queue := s.queue.filter fun e => !e.onWire }.handReports
    else s)

/-- BAD_FRAME (R168): counted, and a CRC failure is signalled to the claim unit (R160). -/
def execBadFrame (check : FailedCheck) (s : State) : Host.Outcome State Fault Refusal :=
  .next (if s.phase = .settled then
      match check with
      | .crc => s.bumpBad.abortAllClaims
      | .kind | .length | .source => s.bumpBad
    else s)

/-- IGNORED_FRAME (R169): ignored without count. -/
def execIgnoredFrame (_h : Header) (_kind : FrameKind) (s : State) : Host.Outcome State Fault Refusal :=
  .next s

/-- A STATUS QUERY taken: one STATUS of the state at this event, for the card (selector 4) or a line; any
other selector is ignored (R175). -/
def State.answerQuery (s : State) (dest : Station) (selector : Nat) : State :=
  if selector = 4 then s.offerFrame { dest := dest, payload := .cardStatus s.cardStatus }
  else if h : selector < 4 then
    s.offerFrame { dest := dest, payload := .lineStatus (s.lineStatus ⟨selector, h⟩) }
  else s

/-- STATUS_QUERY (R175). -/
def execStatusQuery (h : Header) (selector : Fin 256) (s : State) : Host.Outcome State Fault Refusal :=
  .next (s.receive .statusQuery h h.source true fun s => s.answerQuery h.source selector.val)

end Sys2Proof.Machine
end

