-- ==== Sys2Proof/Machine/Posts.lean ====
section
/-! DEFINITION. The class gate and the acceptance of bulletins: the command POST (R64 to R70). -/

namespace Sys2Proof.Machine

/-- The target lines of a post (R65). -/
def State.targetLines (s : State) (channels : List (Fin 1024)) : List LineId :=
  lineIds.filter fun l =>
    decide ((s.lineConfig l).channel ≠ 0) && decide ((s.line l).mode ≠ .disabled)
      && channels.any fun c => c.val = (s.lineConfig l).channel

/-- The checks of the gate before the store's, in their order: why a post with a target line is refused
(R66, steps 2 to 5). -/
def State.gateRefusal (s : State) (source : Station) (cls : Fin 16) (n : Nat) : Option Reason :=
  let e := s.config.classes[cls]
  if s.config.classCount ≤ cls.val then some .range
  else if e.kind = .closed then some .closed
  else if e.maxRank < s.rank source then some .rank
  else if n = 0 then some .range
  else none

/-- A gate refusal: an immediate REFUSED frame to the post's source (R67). -/
def State.refusePost (s : State) (key : Key) (reason : Reason) : State :=
  s.offerFrame { dest := key.station, payload := .refused key reason }

/-- The sendings a class gives each part: REPEATS, or STANDING for 0 (R63, R68). -/
def repeatsOf (repeats : Nat) : Remaining := if repeats = 0 then .standing else .times repeats

/-- A part at acceptance (R68). -/
def newPart (repeats : Nat) (l : LineId) : Part :=
  { line := l, state := .queued, remaining := repeatsOf repeats, passMark := false, formStep := 0 }

/-- A post that passed the gate's checks: one LOADING record with one part queued on each target line, or
REFUSED(STORE-FULL) (R66 step 6, R68, R69). -/
def State.acceptPost (s : State) (key : Key) (cls : Fin 16) (n : Nat) (targets : List LineId) : State :=
  let e := s.config.classes[cls]
  match s.createRecord key n .loading true
      (.bulletin { cls := cls, kind := e.kind, repeats := e.repeats
                   parts := targets.map (newPart e.repeats), cutCounted := false }) with
  | none => s.refusePost key .storeFull
  | some (i, s') => targets.foldl (fun t l => t.joinQueue l i e.kind cls.val) s'

/-- A post taken (R64, R66). -/
def State.takePost (s : State) (key : Key) (cls : Fin 16) (n : Nat) (channels : List (Fin 1024)) : State :=
  match s.findKey key with
  | some _ => s
  | none =>
    match s.targetLines channels with
    | [] => s
    | targets =>
      match s.gateRefusal key.station cls n with
      | some reason => s.refusePost key reason
      | none => s.acceptPost key cls n targets

/-- POST (R64). A channel list outside 1–8 is a length the kind does not have (R168, check 3). -/
def execPost (h : Header) (number : MsgNumber) (cls : Fin 16) (n : Fin 8192) (channels : List (Fin 1024))
    (s : State) : Host.Outcome State Fault Refusal :=
  .next (s.receive .post h h.source (1 ≤ channels.length && channels.length ≤ 8) fun s =>
    s.takePost ⟨h.source, number⟩ cls n.val channels)

end Sys2Proof.Machine
end

