-- ==== Sys2Proof/Machine/Image.lean ====
section
/-! DEFINITION. The CRC of frames and images (R186), and the configuration image: its decoding with the
clamps of R63 and R178 (chapter 12). -/

namespace Sys2Proof.Machine

/-! ## The CRC -/

/-- The bits of the low `w` bits of a number, most significant first. -/
def bitsOf : Nat → Nat → List Bool
  | 0, _ => []
  | w + 1, v => v.testBit w :: bitsOf w v

/-- The number that bits spell, most significant first, read on from `acc`. -/
def bitsToNat : Nat → List Bool → Nat
  | acc, [] => acc
  | acc, b :: bs => bitsToNat (2 * acc + b.toNat) bs

/-- The CRC register after some bits: generator x^16 + x^12 + x^5 + 1, most significant bit first
(R186). -/
def crcFrom : Nat → List Bool → Nat
  | c, [] => c
  | c, b :: bs =>
    if decide (32768 ≤ c) = b then crcFrom (2 * c % 65536) bs
    else crcFrom (2 * c % 65536 ^^^ 0x1021) bs

/-- The CRC-16 of some bits: all sixteen bits set to 1 at the start, no final inversion (R186). -/
def crc16 (bits : List Bool) : Nat := crcFrom 0xffff bits

/-- The bits of some bytes, in the order sent. -/
def byteBits (bytes : List Byte) : List Bool := bytes.flatMap fun b => bitsOf 8 b.toNat

/-! ## Items of the image -/

/-- The byte of an image at an offset. -/
def imageByte (image : List Byte) (offset : Nat) : Nat := ((image[offset]?).getD 0).toNat

/-- The two bytes of an image at an offset, most significant first. -/
def imagePair (image : List Byte) (offset : Nat) : Nat :=
  256 * imageByte image offset + imageByte image (offset + 1)

/-- A value held between two limits. -/
def clamp (low high v : Nat) : Nat := max low (min high v)

/-- The type of a class entry, bits 1–0 (chapter 12). -/
def readClassType (v : Nat) : ClassType :=
  match v % 4 with
  | 0 => .cutIn
  | 1 => .window
  | 2 => .free
  | _ => .closed

/-- REPEATS: above 8 becomes 8; 0 on a CUT-IN entry becomes 1 (R63). -/
def clampRepeats (kind : ClassType) (v : Nat) : Nat :=
  match kind with
  | .cutIn => clamp 1 8 v
  | .window | .free | .closed => min 8 v

/-- Class entry j of the image. -/
def readClass (image : List Byte) (j : Nat) : ClassEntry :=
  let kind := readClassType (imageByte image (65 + 3 * j))
  { kind := kind, maxRank := Fin.ofNat 4 (imageByte image (66 + 3 * j))
    repeats := clampRepeats kind (imageByte image (67 + 3 * j)) }

/-- An entry of an interleave table: bit 0, 1 for T (chapter 12). -/
def readTableEntry (v : Nat) : TableEntry := if v % 2 = 1 then .telex else .bulletin

/-- The block of a line, from its first byte on, clamped (R178). -/
def readLine (image : List Byte) (base : Nat) : LineConfig :=
  { channel := min 999 (imagePair image base)
    band := Fin.ofNat 8 (min 7 (imageByte image (base + 2)))
    q0 := imageByte image (base + 3)
    grace := imageByte image (base + 4)
    linger := min 60 (imageByte image (base + 5))
    parkLimit := clamp 8 60 (imageByte image (base + 6))
    turn := clamp 1 16 (imageByte image (base + 7))
    windowTimes := vecOf 8 fun i => imagePair image (base + 8 + 2 * i.val)
    table := vecOf 32 fun i => readTableEntry (imageByte image (base + 24 + i.val)) }

/-- The configuration an image gives, after clamping (R63, R178, chapter 12). -/
def readImage (image : List Byte) : CardConfig :=
  { rankMap := vecOf 64 fun i => Fin.ofNat 4 (imageByte image i.val)
    classCount := clamp 1 16 (imageByte image 64)
    classes := vecOf 16 fun j => readClass image j.val
    lines := vecOf 4 fun l => readLine image (113 + 56 * l.val) }

/-! ## The end of the read -/

/-- Whether an image is whole and its CRC matches the one it carries (R178). -/
def imageGood (image : List Byte) : Bool :=
  decide (image.length = Config.imageSize)
    && decide (crc16 (byteBits (image.take 337)) = imagePair image 337)

/-- The configuration a read settles; none where the read fails (R178). -/
def settledConfig : ConfigRead → Option CardConfig
  | .noAnswer => none
  | .incomplete => none
  | .image bytes => if imageGood bytes then some (readImage bytes) else none

/-- Whether a line of a configuration starts enabled: its CHANNEL is not 0, and no line of lower number has
the same one (R7, R178). -/
def lineEnabled (c : CardConfig) (l : LineId) : Bool :=
  decide (c.lines[l].channel ≠ 0)
    && lineIds.all fun m => !(decide (m < l) && decide (c.lines[m].channel = c.lines[l].channel))

end Sys2Proof.Machine
end

