-- ==== Sys2Proof/Machine/Circuits.lean ====
section
/-! DEFINITION. The circuit of a line: what each settled outcome does to it, how it is lost, cleared,
parked and unparked, and the cycles it hands (chapters 02 and 03). -/

namespace Sys2Proof.Machine

/-! ## Losing and clearing -/

/-- What becomes of the message on air when its circuit is gone (R43, R48): unmarked it returns to READY with
its ack-count kept, marked it is finished as WITHDRAWN(cut). -/
def State.releaseMessage (s : State) (i : Slot) : State :=
  if s.isOnAir i then
    if s.isMarked i then s.finishTelex i (.withdrawn true)
    else s.modRecord i fun r => { r with state := .ready }
  else s

/-- The current message of a circuit that is gone. -/
def State.releaseCurrent (s : State) (c : Circuit) : State :=
  match c.current with
  | none => s
  | some i => s.releaseMessage i

/-- The current message of a lost circuit; the window learns its end (R43, R98). -/
def State.endCurrent (s : State) (l : LineId) (c : Circuit) : State :=
  match c.current with
  | none => s
  | some i => (s.releaseMessage i).endOfMessage l i

/-- A circuit is lost (R43); a late conflict counts no attempt. -/
def State.loseCircuit (s : State) (l : LineId) (attempt : Bool) : State :=
  match (s.line l).circuit with
  | none => s
  | some c =>
    let s1 := (s.setCircuit l none).modCounters l fun n => { n with circuitsLost := bump n.circuitsLost }
    let s2 := s1.endCurrent l c
    if attempt then s2.countAttempt l c.ship .lost else s2

/-- A circuit enters CLEARING (R44). -/
def Circuit.toClearing (c : Circuit) (cause : ClearCause) : Circuit :=
  { c with state := .clearing, clearCycles := 0, clearCause := cause }

/-- The reason a clear-cause counts an attempt with; none for ORDINARY (R44, R45). -/
def ClearCause.reason : ClearCause → Option Reason
  | .ordinary => none
  | .lost => some .lost
  | .wrongStation => some .wrongStation

/-- Where the entry of a cleared circuit goes (R45 steps 2 to 4): freed when empty, at the head when
recalled, at the tail after an ordinary clear. -/
def State.placeCleared (s : State) (l : LineId) (ship : Nat) (failed : Bool) : State :=
  match (s.line l).entry? ship with
  | none => s
  | some e =>
    if e.messages.isEmpty then s.freeEntry l ship
    else if e.recalled then s.entryToHead l ship fun e => { e with retryHold := 0, recalled := false }
    else if failed then s
    else s.entryToTail l ship id

/-- A clear completes (R45); one with a failure cause counts an attempt and in calls-failed (R49). -/
def State.completeClear (s : State) (l : LineId) (c : Circuit) : State :=
  let s1 := s.setCircuit l none
  match c.clearCause.reason with
  | none => s1.placeCleared l c.ship false
  | some reason =>
    ((s1.modCounters l fun n => { n with callsFailed := bump n.callsFailed }).countAttempt l c.ship
      reason).placeCleared l c.ship true

/-! ## Settled outcomes -/

/-- The five decimal digits of a ship-number, with leading zeros (R34). -/
def shipDigits (ship : Nat) : List Nat :=
  [ship / 10000 % 10, ship / 1000 % 10, ship / 100 % 10, ship / 10 % 10, ship % 10]

/-- A settled CALL (R31). -/
def State.settleCall (s : State) (l : LineId) (c : Circuit) (o : Outcome) : State :=
  if o = .callAnswer then s.setCircuit l (some { c with state := .aligning, trialOffset := 0 })
  else if c.callCycles < Config.callLimit then s
  else ((s.setCircuit l none).modCounters l fun n =>
      { n with callsFailed := bump n.callsFailed }).countAttempt l c.ship .noAnswer

/-- A settled ALIGN of an alignment (R33). -/
def State.settleAlign (s : State) (l : LineId) (c : Circuit) (o : Outcome) : State :=
  s.setCircuit l (some
    (if o = .edgeIn then
      { c with state := .identifying, echoOffset := c.trialOffset, identTries := 0 }
    else if c.trialOffset < Config.lastOffset then { c with trialOffset := c.trialOffset + 4 }
    else c.toClearing .lost))

/-- A circuit enters LINKED from IDENTIFYING (R35). -/
def Circuit.linkedWith (c : Circuit) (q0 : Nat) : Circuit :=
  { c with state := .linked, q := q0, failRun := 0, rephaseCount := 0, lingerCount := 0, k := 0
           block := none, cut := false, current := none }

/-- A settled IDENT (R34, R35, R188). -/
def State.settleIdent (s : State) (l : LineId) (c : Circuit) (o : Outcome) : State :=
  match o with
  | .ident digits =>
    if digits.map BitVec.toNat = shipDigits c.ship then
      (s.setCircuit l (some (c.linkedWith (s.lineConfig l).q0))).modCounters l fun n =>
        { n with circuitsLinked := bump n.circuitsLinked }
    else s.setCircuit l (some (c.toClearing .wrongStation))
  | _ => if c.identTries < 2 then s else s.setCircuit l (some (c.toClearing .lost))

/-- An answer that does not acknowledge a BLOCK or IDLEBLOCK: the fail run grows, and at 4 the circuit
rephases or is lost (R38, R41). A BLOCK also counts in k and in repeats. -/
def State.notAcknowledged (s : State) (l : LineId) (c : Circuit) (isBlock : Bool) : State :=
  let c' := { c with failRun := c.failRun + 1, k := if isBlock then min 7 (c.k + 1) else c.k }
  let s' := if isBlock then s.modCounters l fun n => { n with repeats := bump n.repeats } else s
  if c'.failRun < 4 then s'.setCircuit l (some c')
  else if c.rephaseCount < 3 then
    s'.setCircuit l (some { c' with state := .rephasing, rephaseCycles := 0 })
  else (s'.setCircuit l (some c')).loseCircuit l true

/-- The circuit after its BLOCK is acknowledged (R37, R46): q updated, the fail run and the rephases
ended, no block in hand. -/
def Circuit.acknowledged (c : Circuit) : Circuit :=
  { c with q := qualityUpdate c.q c.k, failRun := 0, rephaseCount := 0, block := none }

/-- A message completes (R39): DELIVERED, out of its entry, attempts 0, its end made known; then a clear
for clear-after where the entry holds nothing more. -/
def State.deliver (s : State) (l : LineId) (c : Circuit) (i : Slot) (clearAfter : Bool) : State :=
  let s1 := s.finishTelex i .delivered
  let s2 := s1.setCircuit l (some { c with current := none })
  let s3 := s2.modEntry l c.ship fun e => { e with attempts := 0 }
  let s4 := s3.endOfMessage l i
  if clearAfter && ((s4.line l).entry? c.ship).all (fun e => e.messages.isEmpty) then
    s4.setCircuit l (some ({ c with current := none }.toClearing .ordinary))
  else s4

/-- A BLOCK of the current message settled GOOD (R37, R39). -/
def State.blockGood (s : State) (l : LineId) (c : Circuit) (i : Slot) : State :=
  match s.record i with
  | none => s
  | some r =>
    let size := (c.block.map fun b => b.chars.length).getD 0
    let ack := r.ackCount + size
    let s1 := s.modRecord i fun r => r.modTelex fun t => { t with ackCount := ack }
    let s2 := s1.setCircuit l (some c.acknowledged)
    if ack = r.n then
      s2.deliver l c.acknowledged i ((r.telex?.map (·.clearAfter)).getD false)
    else s2

/-- The cut notice settled GOOD: the message is finished as WITHDRAWN(cut) (R46). -/
def State.cutGood (s : State) (l : LineId) (c : Circuit) (i : Slot) : State :=
  ((s.finishTelex i (.withdrawn true)).setCircuit l
    (some { c.acknowledged with current := none, cut := false })).endOfMessage l i

/-- A settled BLOCK (R37, R38, R46). -/
def State.settleBlock (s : State) (l : LineId) (c : Circuit) (o : Outcome) : State :=
  if o = .good then
    match c.current with
    | none => s.setCircuit l (some c.acknowledged)
    | some i => if c.cut then s.cutGood l c i else s.blockGood l c i
  else s.notAcknowledged l c true

/-- A settled IDLEBLOCK (R41). -/
def State.settleIdle (s : State) (l : LineId) (c : Circuit) (o : Outcome) : State :=
  if o = .good then s.setCircuit l (some { c with failRun := 0, rephaseCount := 0 })
  else s.notAcknowledged l c false

/-- The end of a REPHASE cycle: after the second the search begins 8 ms below the echo offset (R42). -/
def Circuit.afterRephase (c : Circuit) : Circuit :=
  if c.rephaseCycles < 2 then c else { c with trialOffset := c.echoOffset - 8 }

/-- A settled ALIGN of a rephase (R42). -/
def State.settleRephase (s : State) (l : LineId) (c : Circuit) (o : Outcome) : State :=
  if o = .edgeIn then
    s.setCircuit l (some { c with state := .linked, echoOffset := c.trialOffset
                                  rephaseCount := c.rephaseCount + 1, failRun := 0 })
  else if c.trialOffset < Config.lastOffset then
    s.setCircuit l (some { c with trialOffset := c.trialOffset + 4 })
  else s.loseCircuit l true

/-- What the circuit does with the ended cycle it owned, by its state and the cycle's kind; a settled
outcome whose work is gone is dropped (R6). -/
def State.settleCircuit (s : State) (l : LineId) (c : Circuit) (ended : Cycle) (o : Outcome) : State :=
  match c.state, ended with
  | .calling, .call _ => s.settleCall l c o
  | .aligning, .align => s.settleAlign l c o
  | .identifying, .ident => s.settleIdent l c o
  | .linked, .block _ => s.settleBlock l c o
  | .linked, .idleblock => s.settleIdle l c o
  | .rephasing, .rephase => s.setCircuit l (some c.afterRephase)
  | .rephasing, .align => s.settleRephase l c o
  | .clearing, .clear => if c.clearCycles < 2 then s else s.completeClear l c
  | _, _ => s

/-! ## Parking -/

/-- The silence-count step of a parked circuit, with its loss at the park limit (R53, R54). -/
def State.silenceStep (s : State) (l : LineId) (ended : Option Cycle) (o : Option Outcome) : State :=
  match (s.line l).circuit with
  | none => s
  | some c =>
    if c.state = .parked then
      if (ended = some .park ∨ ended = some .keep) ∧ o = some .good then
        s.setCircuit l (some { c with silenceCount := 0 })
      else if c.silenceCount + 1 < (s.lineConfig l).parkLimit then
        s.setCircuit l (some { c with silenceCount := c.silenceCount + 1 })
      else s.loseCircuit l true
    else s

/-- A LINKED circuit enters PARKED (R51, R21). -/
def Circuit.toParked (c : Circuit) : Circuit := { c with state := .parked, silenceCount := 0 }

/-- A KEEP is handed (R55, R57, R62). -/
def State.handKeep (s : State) (l : LineId) : State × Cycle :=
  (s.modCounters l fun n => { n with keepsSent := bump n.keepsSent }, .keep)

/-- A PARK is handed in place of a broadcast unit's first cycle (R51). -/
def State.handPark (s : State) (l : LineId) (c : Circuit) : State × Cycle :=
  (s.setCircuit l (some c.toParked), .park)

/-! ## The cycles a circuit hands -/

/-- The check of an emptied entry (R28): a call stops, and an alignment or identification clears. -/
def State.emptiedCheck (s : State) (l : LineId) : State :=
  match (s.line l).circuit with
  | none => s
  | some c =>
    if ((s.line l).entry? c.ship).any fun e => e.messages.isEmpty then
      match c.state with
      | .calling => (s.setCircuit l none).freeEntry l c.ship
      | .aligning | .identifying => s.setCircuit l (some (c.toClearing .ordinary))
      | .linked | .parked | .rephasing | .clearing => s
    else s

/-- A circuit record at the start of a call (R23, R30): every field but ship-number and state at 0 or
absent, and the first CALL counted. clear-cause, whose range has neither, stands at ORDINARY until a clear
sets it (DESIGN CHOICE, log 35). -/
def Circuit.newCall (ship : Nat) : Circuit :=
  { ship := ship, state := .calling, echoOffset := 0, trialOffset := 0, q := 0, failRun := 0
    rephaseCount := 0, silenceCount := 0, lingerCount := 0, callCycles := 1, rephaseCycles := 0
    identTries := 0, clearCycles := 0, clearCause := .ordinary, current := none, block := none, k := 0
    cut := false }

/-- A call starts: the circuit record is created, the entry's recall is cleared, and CALL is handed
(R30). -/
def State.startCall (s : State) (l : LineId) (ship : Nat) : State × Cycle :=
  ((s.setCircuit l (some (Circuit.newCall ship))).modEntry l ship fun e => { e with recalled := false },
    .call ship)

/-- The cycle of a circuit in an operation (R24): CALL, ALIGN, IDENT, REPHASE or CLEAR. -/
def State.handOperation (s : State) (l : LineId) (c : Circuit) : State × Cycle :=
  match c.state with
  | .calling => (s.setCircuit l (some { c with callCycles := c.callCycles + 1 }), .call c.ship)
  | .aligning => (s, .align)
  | .identifying => (s.setCircuit l (some { c with identTries := c.identTries + 1 }), .ident)
  | .rephasing =>
    if c.rephaseCycles < 2 then
      (s.setCircuit l (some { c with rephaseCycles := c.rephaseCycles + 1 }), .rephase)
    else (s, .align)
  | .clearing => (s.setCircuit l (some { c with clearCycles := c.clearCycles + 1 }), .clear)
  | .linked => (s, .idleblock)
  | .parked => (s, .keep)

/-- The block a circuit sends of a message: the block in hand with its k, or the next four characters
(R36). -/
def State.formBlock (s : State) (c : Circuit) (r : Record) : Block × Nat :=
  match c.block with
  | some b => (b, c.k)
  | none => (⟨r.ackCount + 1, s.readChars r (r.ackCount + 1) (min 4 (r.n - r.ackCount))⟩, 0)

/-- silence-count after a BLOCK is handed: 0 where the BLOCK unparks the circuit (R59). -/
def Circuit.unparkedSilence (c : Circuit) : Nat := if c.state = .parked then 0 else c.silenceCount

def State.bumpBlocks (s : State) (l : LineId) : State :=
  s.modCounters l fun n => { n with blocksSent := bump n.blocksSent }

/-- A BLOCK of a message is handed (R36, R59): a READY message goes ON-AIR, and a parked circuit is LINKED
again. -/
def State.handBlock (s : State) (l : LineId) (c : Circuit) (i : Slot) : State × Cycle :=
  match s.record i with
  | none => (s, .idleblock)
  | some r =>
    let (b, k) := s.formBlock c r
    let s1 := s.modRecord i fun r => if r.state = .ready then { r with state := .onAir } else r
    (((s1.setCircuit l (some { c with state := .linked, current := some i, block := some b, k := k
                                      lingerCount := 0, silenceCount := c.unparkedSilence })).bumpBlocks l),
      .block b.chars)

/-- The four characters XXXX (R46). -/
def cutNotice : List Byte := [88, 88, 88, 88]

/-- The cut notice is handed (R46, R59): the first time it takes the block in hand's place with k 0, and it
is resent with its k until GOOD. -/
def State.handCut (s : State) (l : LineId) (c : Circuit) : State × Cycle :=
  let c' := if c.cut then c else { c with cut := true, block := none, k := 0 }
  ((s.setCircuit l (some { c' with state := .linked, lingerCount := 0
                                   silenceCount := c.unparkedSilence })).bumpBlocks l,
    .block cutNotice)

/-- Whether linger is waived: a READY cut-in is queued, or the window is open and not deferred (R40). -/
def State.lingerWaived (s : State) (l : LineId) : Bool :=
  (s.nextCutIn l).isSome || decide ((s.line l).window.state = .isOpen)

/-- A LINKED circuit given the cycle without ready traffic: CLEAR where linger is waived or has run out,
else IDLEBLOCK (R40). -/
def State.handIdle (s : State) (l : LineId) (c : Circuit) : State × Cycle :=
  if s.lingerWaived l ∨ c.lingerCount = (s.lineConfig l).linger then
    (s.setCircuit l (some { c.toClearing .ordinary with clearCycles := 1 }), .clear)
  else (s.setCircuit l (some { c with lingerCount := c.lingerCount + 1 }), .idleblock)

/-- A LINKED or PARKED circuit is given the cycle as circuit traffic (R36, R40, R46, R59, R60). -/
def State.handTraffic (s : State) (l : LineId) (c : Circuit) : State × Cycle :=
  if s.cutDue c then s.handCut l c
  else
    match s.nextMessage l c with
    | some i => s.handBlock l c i
    | none =>
      if c.state = .parked then s.handIdle l { c with state := .linked, lingerCount := 0 }
      else s.handIdle l c

end Sys2Proof.Machine
end

