-- ==== Sys2Proof/Machine/Windows.lean ====
section
/-! DEFINITION. The schedule clock and the opening of windows: minute advances, TIME sets, window marks,
openings, the opening of a pending window with its fit test, and the deferral step (chapter 05). The
commands SECOND_TIMER_EXPIRY and TIME. -/

namespace Sys2Proof.Machine

/-! ## Marks and openings -/

/-- Whether a window time of a line falls due: its minute is one of those passed, and its mark is clear
(R89, R92). -/
def State.fallsDue (s : State) (due : Nat → Bool) (l : LineId) (i : Fin 8) : Bool :=
  due (s.lineConfig l).windowTimes[i] && !s.marks[l][i]

/-- The lines with at least one window time falling due (R93). -/
def State.dueLines (s : State) (due : Nat → Bool) : List LineId :=
  lineIds.filter fun l => (List.finRange 8).any (s.fallsDue due l)

/-- The marks of the times falling due are set (R89, R90). -/
def State.setMarks (s : State) (due : Nat → Bool) : State :=
  { s with marks := vecOf 4 fun l => vecOf 8 fun i => s.marks[l][i] || s.fallsDue due l i }

/-- All marks are cleared (R90). -/
def State.clearMarks (s : State) : State :=
  { s with marks := Vector.replicate 4 (Vector.replicate 8 false) }

/-- A line takes an opening (R95): ignored when DISABLED, PENDING when CLOSED, absorbed else. -/
def State.takeOpening (s : State) (l : LineId) : State :=
  let x := s.line l
  if x.mode = .disabled then s
  else if x.window.state = .closed then s.modWindow l fun w => { w with state := .pending }
  else s.modCounters l fun n => { n with windowsAbsorbed := bump n.windowsAbsorbed }

/-- At most one opening is handed to each line in one event (R93). -/
def State.handOpenings (s : State) (ls : List LineId) : State :=
  lineIds.foldl (fun t l => if ls.contains l then t.takeOpening l else t) s

/-! ## The clock -/

/-- The minutes (a, b]. -/
def minutesAfter (a b : Nat) (t : Nat) : Bool := decide (a < t) && decide (t ≤ b)

/-- The minute advances: from 1439 to 0 with the marks cleared, and with the due check while time-valid
(R89). -/
def State.advanceMinute (s : State) : State :=
  let s1 := { s with minute := s.minute + 1 }
  let s2 := if s1.minute = 0 then s1.clearMarks else s1
  if s2.timeValid then
    let due := fun t => decide (t = s2.minute.val)
    (s2.setMarks due).handOpenings (s2.dueLines due)
  else s2

/-- The second timer expires (R88). -/
def State.secondPasses (s : State) : State :=
  if s.second = 59 then { s with second := 0 }.advanceMinute else { s with second := s.second + 1 }

/-- The due work of a set with time-valid true, against the minute before the set (R92, R93). -/
def State.dueWork (s : State) (new : Nat) : State :=
  let current := s.minute.val
  if current ≤ new then
    let due := minutesAfter current new
    (s.setMarks due).handOpenings (s.dueLines due)
  else if current - new ≤ 10 then s
  else
    let first := minutesAfter current 1439
    let second := fun t => decide (t ≤ new)
    let s1 := (s.setMarks first).clearMarks
    (s1.setMarks second).handOpenings (s.dueLines first ++ s1.dueLines second)

/-- The clock takes a time (R91): out of range it is ignored; else a set, the first one without due work. -/
def State.setClock (s : State) (minute second : Nat) : State :=
  if h : minute < 1440 ∧ second < 60 then
    let s' := if s.timeValid then s.dueWork minute else s
    { s' with minute := ⟨minute, h.1⟩, second := ⟨second, h.2⟩, timeValid := true }
  else s

/-! ## Opening and deferral -/

/-- The fit test at a window's opening (R97, R126): the estimate and its saturation for the circuit's
ON-AIR message. -/
def State.fitTest (s : State) (l : LineId) : Option (Slot × Nat × Bool) :=
  match (s.line l).circuit with
  | none => none
  | some c =>
    match c.current with
    | none => none
    | some i =>
      match s.record i with
      | none => none
      | some r =>
        if r.state = .onAir then
          some (i, fitEstimate r.remainingBlocks c.q, fitSaturated r.remainingBlocks c.q)
        else none

/-- Whether a pending window opens at this boundary: the ended cycle was ACTIVE, or the second KEYUP
(R96). -/
def Line.opensPending (x : Line) : Bool :=
  decide (x.window.state = .pending)
    && (decide (x.mode = .active) || (decide (x.mode = .keying) && decide (x.keyupCount = 2)))

/-- A pending window opens, deferred where the fit test says so (R96, R97). -/
def State.openPending (s : State) (l : LineId) : State :=
  if (s.line l).opensPending then
    match s.fitTest l with
    | none => s.modWindow l fun w =>
        { w with state := .isOpen, deferredCycles := 0, unitsEnded := false, noticeStep := 0 }
    | some (i, est, saturated) =>
      let defers := !saturated && decide (est ≤ (s.lineConfig l).grace)
      s.modWindow l fun w =>
        { w with
          state := if defers then .openDeferred else .isOpen
          deferredFor := if defers then some i else none
          deferredCycles := 0, unitsEnded := false, noticeStep := 0
          lastEst := est, estSaturated := saturated }
  else s

/-- The deferral step of a boundary (R98). -/
def State.deferralStep (s : State) (l : LineId) : State :=
  s.modWindow l fun w =>
    if w.state = .openDeferred then
      if w.deferredCycles + 1 < (s.lineConfig l).grace then
        { w with deferredCycles := w.deferredCycles + 1 }
      else
        { w with deferredCycles := w.deferredCycles + 1, state := .isOpen, deferredFor := none }
    else w

/-! ## The commands of the clock -/

/-- SECOND_TIMER_EXPIRY (R88). The timer runs from the end of the configuration read on. -/
def execSecondTimerExpiry (s : State) : Host.Outcome State Fault Refusal :=
  .next (if s.phase = .settled then s.secondPasses else s)

/-- TIME (R91). -/
def execTime (h : Header) (minute : Fin 2048) (second : Fin 64) (s : State) :
    Host.Outcome State Fault Refusal :=
  .next (s.receive .time h h.source true fun s => s.setClock minute.val second.val)

end Sys2Proof.Machine
end

