-- ==== Sys2Proof/Machine/Interleaver.lean ====
section
/-! DEFINITION. The interleaver of a line: the end tests of a turn, the sources in the order of R105, and
the cycle the first that applies hands (chapter 06). Each source stands above the one it falls through
to, so the file reads from source 10 up to source 1. -/

namespace Sys2Proof.Machine

/-- A cycle handed by the circuit inside a T turn counts in turn-cycles, held at R (R114). -/
def State.countTurn (s : State) (l : LineId) : State :=
  s.modArbiter l fun a =>
    match a.turn with
    | .telex => { a with turnCycles := min (s.lineConfig l).turn (a.turnCycles + 1) }
    | .noTurn => a
    | .bulletin => a

/-- The state of a choice with its turn counted. -/
def countedTurn (l : LineId) (p : State × Cycle) : State × Cycle := (p.1.countTurn l, p.2)

/-! ## Sources 10 to 7 -/

/-- Source 10, FILLER, or REST after the 8th in a row on a line without a circuit (R12, R120). -/
def State.serveFiller (s : State) (l : LineId) : State × Cycle :=
  let x := s.line l
  if x.fillerRun < 8 then (s.modLine l fun x => { x with fillerRun := x.fillerRun + 1 }, .filler)
  else if x.circuit.isNone then
    (s.modLine l fun x => { x with fillerRun := 0, mode := .rest }, .unkeyed)
  else (s, .filler)

/-- Source 9, a free bulletin (R119). -/
def State.serveFree (s : State) (l : LineId) : State × Cycle :=
  match s.nextFree l with
  | some i => s.beginSending l i
  | none => s.serveFiller l

/-- Source 8, a call (R118). -/
def State.serveCall (s : State) (l : LineId) : State × Cycle :=
  match s.callable? l with
  | some e => s.startCall l e.ship
  | none => s.serveFree l

/-- Source 7, circuit traffic (R117). -/
def State.serveTraffic (s : State) (l : LineId) : State × Cycle :=
  match (s.line l).circuit with
  | some c =>
    if c.state.inTraffic then countedTurn l (s.handTraffic l c) else s.serveCall l
  | none => s.serveCall l

/-! ## Source 6: the open window -/

/-- The next NOTICE of the notice run (R100). -/
def State.handNotice (s : State) (l : LineId) : State × Cycle :=
  (s.modWindow l fun w => { w with noticeStep := w.noticeStep + 1 }, .notice)

/-- The unit a window gave is begun (R112, R115). -/
def State.beginUnit (s : State) (l : LineId) : WindowAnswer → State × Cycle
  | .part i => s.beginSending l i
  | .notice => s.handNotice l
  | .nothing => s.serveTraffic l

/-- A read of the interleave table for a circuit with ready traffic (R113). -/
def State.readTable (s : State) (l : LineId) (c : Circuit) : State × Cycle :=
  let p := (s.line l).arbiter.phasePointer
  let s1 := s.modArbiter l fun a => { a with phasePointer := p + 1, keepOffered := false }
  match (s.lineConfig l).table[p] with
  | .telex =>
    countedTurn l ((s1.modArbiter l fun a => { a with turn := .telex, turnCycles := 0 }).handTraffic l c)
  | .bulletin =>
    match s1.askWindow l with
    | .nothing => (s1.closeWindow l).serveTraffic l
    | answer =>
      if c.state = .linked then
        (s1.modArbiter l fun a => { a with turn := .bulletin, bBegun := false }).handPark l c
      else (s1.modArbiter l fun a => { a with turn := .bulletin, bBegun := true }).beginUnit l answer

/-- The window asked on a line without a circuit (R112, step 5). -/
def State.askWithoutCircuit (s : State) (l : LineId) : State × Cycle :=
  let s1 := s.modArbiter l fun a => { a with keepOffered := false }
  match s1.askWindow l with
  | .nothing => (s1.closeWindow l).serveCall l
  | answer => s1.beginUnit l answer

/-- The unit a B turn waits for (R112, step 1; R115). -/
def State.unitOfTurn (s : State) (l : LineId) : State × Cycle :=
  match s.askWindow l with
  | .nothing => (s.closeWindow l).serveTraffic l
  | answer => (s.modArbiter l fun a => { a with bBegun := true }).beginUnit l answer

/-- A unit boundary with a LINKED or PARKED circuit (R112, steps 2 to 4). -/
def State.unitBoundary (s : State) (l : LineId) (c : Circuit) : State × Cycle :=
  if !s.readyTraffic l c then s.handTraffic l c
  else if c.opportunisticKeep (s.lineConfig l).parkLimit && !(s.line l).arbiter.keepOffered then
    (s.modArbiter l fun a => { a with keepOffered := true }).handKeep l
  else s.readTable l c

/-- Source 6, the open window (R112). -/
def State.serveWindow (s : State) (l : LineId) : State × Cycle :=
  let x := s.line l
  if x.window.state = .isOpen then
    match x.arbiter.turn with
    | .telex => s.serveTraffic l
    | .bulletin => if x.arbiter.bBegun then s.serveTraffic l else s.unitOfTurn l
    | .noTurn =>
      match x.circuit with
      | none => s.askWithoutCircuit l
      | some c => if c.state.inTraffic then s.unitBoundary l c else s.serveTraffic l
  else s.serveTraffic l

/-! ## Sources 5 to 1 -/

/-- Source 5, the unit in progress (R111). -/
def State.serveUnit (s : State) (l : LineId) : State × Cycle :=
  match s.unitOnAir l with
  | some i => s.continueSending l i
  | none => if (s.line l).window.noticeStep = 0 then s.serveWindow l else s.handNotice l

/-- The preparation for a READY cut-in, or its first cycle (R110): the turn ends and keep-offered is
cleared, then the steps of the table in order. -/
def State.prepareCutIn (s : State) (l : LineId) (i : Slot) : State × Cycle :=
  let s1 := s.modArbiter l fun a => { a.endTurn with keepOffered := false }
  match s1.unitOnAir l with
  | some j => (s1.abandonSending l j, .bbroken)
  | none =>
    let s2 := s1.dropNotice l
    match (s2.line l).circuit with
    | none => s2.beginSending l i
    | some c =>
      match c.state with
      | .calling => (s2.setCircuit l none).beginSending l i
      | .linked => if s2.readyTraffic l c then s2.handPark l c else s2.handIdle l c
      | .parked | .aligning | .identifying | .rephasing | .clearing => s2.beginSending l i

/-- Source 4, a cut-in on air or READY (R110, R111). -/
def State.serveCutIn (s : State) (l : LineId) : State × Cycle :=
  match s.cutInOnAir l with
  | some i => s.continueSending l i
  | none =>
    match s.nextCutIn l with
    | some i => s.prepareCutIn l i
    | none => s.serveUnit l

/-- The bulletin on air whose record is marked (R109). -/
def State.brokenEndDue (s : State) (l : LineId) : Option Slot :=
  match s.bulletinOnAir l with
  | some i => if s.isMarked i then some i else none
  | none => none

/-- Source 3, the withdraw cut: the cut notice, or a broken end (R109). -/
def State.serveCut (s : State) (l : LineId) : State × Cycle :=
  match (s.line l).circuit.filter (fun c => decide (c.state = .linked) && s.cutDue c) with
  | some c => countedTurn l (s.handCut l c)
  | none =>
    match s.brokenEndDue l with
    | some i => s.breakSending l i
    | none => s.serveCutIn l

/-- Source 2, a forced keep (R108). -/
def State.serveKeep (s : State) (l : LineId) : State × Cycle :=
  if (s.line l).circuit.any fun c => c.forcedKeep (s.lineConfig l).parkLimit then s.handKeep l
  else s.serveCut l

/-- Source 1, the operation in progress: CALLING gives way to a READY cut-in (R105, R107). -/
def State.serveOperation (s : State) (l : LineId) : State × Cycle :=
  match (s.line l).circuit.filter (fun c =>
      c.state.inOperation || (decide (c.state = .calling) && (s.nextCutIn l).isNone)) with
  | some c => countedTurn l (s.handOperation l c)
  | none => s.serveKeep l

/-- The end tests of a T turn (R114). -/
def State.endTests (s : State) (l : LineId) : State :=
  let x := s.line l
  let ends :=
    match x.circuit with
    | none => true
    | some c =>
      (c.state.inTraffic
        && (decide ((s.lineConfig l).turn ≤ x.arbiter.turnCycles) || !s.readyTraffic l c))
      || decide (x.window.state ≠ .isOpen)
  if x.arbiter.turn = .telex ∧ ends = true then s.modArbiter l Arbiter.endTurn else s

/-- The choice of an ACTIVE line: the end tests, then the sources in order; a cycle other than FILLER sets
filler-run to 0 (R105, R12). -/
def State.chooseCycle (s : State) (l : LineId) : State × Cycle :=
  let (s', c) := (s.endTests l).serveOperation l
  (if c = .filler then s' else s'.modLine l fun x => { x with fillerRun := 0 }, c)

end Sys2Proof.Machine
end

