-- ==== Sys2Proof/Machine/Links.lean ====
section
/-! DEFINITION. The line links: which cycles expect an answer and which outcomes they recognise (R3, R6),
and the bytes of cycle records and outcome records (chapter 12, R188). -/

namespace Sys2Proof.Machine

/-- Whether a cycle's kind expects an answer (R3). -/
def Cycle.expectsAnswer : Cycle → Bool
  | .call _ | .align | .ident | .block _ | .idleblock | .park | .keep => true
  | .unkeyed | .keyup | .filler | .rephase | .clear | .bhead _ _ _ | .btext _ | .bend | .bbroken
  | .notice | .pattern => false

/-- Whether a cycle's kind recognises an outcome kind (R6). -/
def Cycle.recognises : Cycle → Outcome → Bool
  | .call _, .callAnswer => true
  | .align, .edgeIn => true
  | .align, .edgeEarly => true
  | .ident, .ident _ => true
  | .block _, o | .idleblock, o | .park, o | .keep, o =>
    o = .good || o = .repeated || o = .garbled || o = .noAnswer
  | _, .noAnswer => true
  | _, _ => false

/-- The outcome a cycle settles with (R6): none where its kind expects no answer; else the kept outcome,
NONE where none was kept, GARBLED where the kind does not recognise it. -/
def settledOutcome (c : Cycle) (kept : Option Outcome) : Option Outcome :=
  if c.expectsAnswer then
    let o := kept.getD .noAnswer
    some (if c.recognises o then o else .garbled)
  else none

/-! ## Outcome records -/

/-- The outcome kind of the first byte of an outcome record, bits 5–3, with the digit bytes for IDENT
(R188). -/
def readOutcome (head : Byte) (digits : List Byte) : Outcome :=
  match (head.toNat / 8) % 8 with
  | 0 => .good
  | 1 => .repeated
  | 2 => .garbled
  | 3 => .noAnswer
  | 4 => .callAnswer
  | 5 => .edgeEarly
  | 6 => .edgeIn
  | _ => .ident digits

/-- The cycle-tag of the first byte of an outcome record, bits 2–0 (R188). -/
def readTag (head : Byte) : Fin 8 := Fin.ofNat 8 head.toNat

/-- A line takes an outcome record (R5): kept where its tag is the current one, the cycle expects an answer
and no outcome is kept yet. -/
def Line.takeOutcome (x : Line) (tag : Fin 8) (o : Outcome) : Line :=
  match x.cycle with
  | none => x
  | some r =>
    if r.tag = tag ∧ r.cycle.expectsAnswer = true ∧ x.outcome = none then { x with outcome := some o }
    else x

/-! ## Cycle records -/

/-- The cycle kind code of chapter 12. -/
def Cycle.code : Cycle → Nat
  | .unkeyed => 0 | .keyup => 1 | .filler => 2 | .call _ => 3 | .align => 4 | .ident => 5
  | .block _ => 6 | .idleblock => 7 | .park => 8 | .keep => 9 | .rephase => 10 | .clear => 11
  | .bhead _ _ _ => 12 | .btext _ => 13 | .bend => 14 | .bbroken => 15 | .notice => 16
  | .pattern => 17

/-- The characters R, Y, R, Y, R, Y (R19). -/
def patternChars : List Byte := [82, 89, 82, 89, 82, 89]

/-- The bytes of a number, most significant first. -/
def bigEndian : Nat → Nat → List Byte
  | 0, _ => []
  | w + 1, v => BitVec.ofNat 8 (v / 256 ^ w) :: bigEndian w v

/-- Characters carried, and the content bytes named by the kind. -/
def Cycle.content : Cycle → Nat × List Byte
  | .call ship => (0, bigEndian 3 ship)
  | .block chars => (chars.length, chars)
  | .btext chars => (chars.length, chars)
  | .bhead key cls n =>
    (0, bigEndian 1 key.station.val ++ bigEndian 2 key.number.val ++ bigEndian 1 cls.val
      ++ bigEndian 2 n)
  | .pattern => (6, patternChars)
  | .unkeyed | .keyup | .filler | .align | .ident | .idleblock | .park | .keep | .rephase | .clear
  | .bend | .bbroken | .notice => (0, [])

/-- The nine bytes of a cycle record (chapter 12). -/
def CycleRecord.bytes (r : CycleRecord) : List Byte :=
  [BitVec.ofNat 8 (r.tag.val + 8 * r.cycle.code), BitVec.ofNat 8 r.windowOffset,
    BitVec.ofNat 8 r.cycle.content.1]
    ++ (r.cycle.content.2 ++ List.replicate 6 0).take 6

end Sys2Proof.Machine
end

