-- ==== Sys2Proof/Machine/LineCycle.lean ====
section
/-! DEFINITION. The line cycle: what one boundary of a line does, stage by stage, and the commands BOUNDARY,
OUTCOME_RECORD, the line orders, SILENCE and RESUME (chapter 01). -/

namespace Sys2Proof.Machine

/-! ## Stages 1 and 2 -/

/-- A notice run ends with its fourth NOTICE (R100, R101). -/
def State.endNotice (s : State) (l : LineId) : State :=
  if (s.line l).window.noticeStep < 4 then s else (s.dropNotice l).unitEnds l

/-- Settling (R6): the ended cycle's outcome goes to the owner of its content; a BEND completes a sending
(R76) and a fourth NOTICE a notice run (R100). -/
def State.settle (s : State) (l : LineId) (ended : Option Cycle) (o : Option Outcome) : State :=
  let s' := s.modLine l fun x => { x with outcome := none }
  match ended with
  | none => s'
  | some .bend =>
    match s'.bulletinOnAir l with
    | some i => s'.completeSending l i
    | none => s'
  | some .notice => s'.endNotice l
  | some cycle =>
    match (s'.line l).circuit with
    | none => s'
    | some c => s'.settleCircuit l c cycle (o.getD .noAnswer)

/-- An entry's retry-hold after the decrease of a boundary: one less, unless this boundary's settling set
it; `before` is the call list before settling (R27). -/
def Entry.decreased (before : List Entry) (e : Entry) : Entry :=
  if (before.find? fun b => b.ship = e.ship).any fun b => b.retryHold = e.retryHold then
    { e with retryHold := e.retryHold - 1 }
  else e

/-- The retry-hold decrease (R27). -/
def State.decreaseHolds (s : State) (l : LineId) (before : List Entry) : State :=
  s.modLine l fun x => { x with callList := x.callList.map (Entry.decreased before) }

/-- The removal of the parts of withdrawn bulletins from a line (R84), the records in slot order (DESIGN
CHOICE, log 15). -/
def State.removeAllWithdrawn (s : State) (l : LineId) : State :=
  slots.foldl (fun t i => t.removeWithdrawn l i) s

/-- The per-boundary work, in its order (R2). -/
def State.perBoundary (s : State) (l : LineId) (before : List Entry) (ended : Option Cycle)
    (o : Option Outcome) : State :=
  (((((s.decreaseHolds l before).silenceStep l ended o).emptiedCheck l).removeAllWithdrawn
    l).deferralStep l).openPending l

/-! ## Stage 3: the mode step -/

/-- What a circuit becomes as its line stops keying (R21). An operation before LINKED, or a rephase, ends
with no attempt; the message of a rephasing circuit goes as at a loss, and an entry left empty is freed
(DEDUCED, log 8). The window stays as it is (R98, R102). -/
def State.stopCircuit (s : State) (l : LineId) : State :=
  match (s.line l).circuit with
  | none => s
  | some c =>
    match c.state with
    | .calling | .aligning | .identifying | .rephasing =>
      ((s.setCircuit l none).releaseCurrent c).freeEmptyEntry l c.ship
    | .linked => s.setCircuit l (some c.toParked)
    | .parked => s
    | .clearing => s.completeClear l c

/-- The line leaves keying for STOPPED or SILENT: the bulletin on air, the notice run, the circuit's
operation and the turn end (R16, R14, R21, R81, R100, R104, R12). -/
def State.stopKeying (s : State) (l : LineId) (m : Mode) : State :=
  let s1 :=
    match s.bulletinOnAir l with
    | some i => s.stopSending l i
    | none => s
  let s2 := (s1.dropNotice l).stopCircuit l
  s2.modLine l fun x =>
    { x with mode := m, keyupCount := 0, fillerRun := 0
             arbiter := { x.arbiter.endTurn with keepOffered := false } }

/-- The silence check (R14). -/
def State.silenceCheck (s : State) (l : LineId) : State :=
  match (s.line l).mode with
  | .rest | .keying | .active | .pattern => if s.silencedLine l then s.stopKeying l .silent else s
  | .silent =>
    if s.silencedLine l then s else s.modLine l fun x => { x with mode := .rest }
  | .stopped | .disabled => s

/-- Whether PATTERN ON is accepted (R18). -/
def State.patternAllowed (s : State) (l : LineId) : Bool :=
  let x := s.line l
  (decide (x.mode = .rest) || decide (x.mode = .active)) && x.circuit.isNone
    && (s.bulletinOnAir l).isNone && decide (x.window.state ≠ .isOpen)
    && decide (x.window.state ≠ .openDeferred)

/-- A held order acts, and gives its result (R16 to R19). -/
def State.actOrder (s : State) (l : LineId) (order : LineOrder) : State × OrderResult :=
  match order with
  | .stop =>
    (match (s.line l).mode with
      | .rest | .keying | .active | .silent | .pattern => s.stopKeying l .stopped
      | .stopped | .disabled => s, .accepted)
  | .start =>
    (if (s.line l).mode = .stopped then
        s.modLine l fun x => { x with mode := if s.silencedLine l then .silent else .rest }
      else s, .accepted)
  | .patternOn =>
    if s.patternAllowed l then
      (s.modLine l fun x => { x with mode := .pattern, fillerRun := 0 }, .accepted)
    else (s, .busy)
  | .patternOff =>
    (if (s.line l).mode = .pattern then s.modLine l fun x => { x with mode := .rest } else s, .accepted)

/-- The order step: a held order acts and is cleared; a DISABLED line has none (R15, R8). -/
def State.orderStep (s : State) (l : LineId) : State × Option (Station × OrderResult) :=
  match (s.line l).held with
  | none => (s, none)
  | some h =>
    let p := (s.modLine l fun x => { x with held := none }).actOrder l h.order
    (p.1, some (h.source, p.2))

/-- The keying check: after two KEYUP cycles the line enters ACTIVE (R11). -/
def State.keyingCheck (s : State) (l : LineId) : State :=
  if (s.line l).mode = .keying ∧ 2 ≤ (s.line l).keyupCount then
    s.modLine l fun x => { x with mode := .active, keyupCount := 0 }
  else s

/-- The mode step (R2, stage 3). -/
def State.modeStep (s : State) (l : LineId) : State × Option (Station × OrderResult) :=
  let p := (s.silenceCheck l).orderStep l
  (p.1.keyingCheck l, p.2)

/-! ## Stages 4 and 5 -/

/-- The rest check: a line in REST with content enters KEYING (R10); it is not made while the start interval
runs (R7). -/
def State.restCheck (s : State) (l : LineId) : State × Cycle :=
  if !s.startInterval && s.hasContent l then
    (s.modLine l fun x => { x with mode := .keying, keyupCount := 1, fillerRun := 0 }, .keyup)
  else (s, .unkeyed)

/-- The choice of the coming cycle by the mode that results (R2, stage 4; R3). -/
def State.choice (s : State) (l : LineId) : State × Cycle :=
  match (s.line l).mode with
  | .disabled | .stopped | .silent => (s, .unkeyed)
  | .pattern => (s, .pattern)
  | .keying => (s.modLine l fun x => { x with keyupCount := x.keyupCount + 1 }, .keyup)
  | .rest => s.restCheck l
  | .active => s.chooseCycle l

/-- The tag of the coming cycle (R1). -/
def Line.nextTag (x : Line) : Fin 8 :=
  match x.cycle with
  | none => 0
  | some r => r.tag + 1

/-- The window-offset of a record: the trial offset for ALIGN, the echo offset for the circuit's other
answered cycles, 0 for CALL and for every kind that expects no answer (R3). -/
def Line.offsetFor (x : Line) (c : Cycle) : Nat :=
  match c with
  | .align => (x.circuit.map (·.trialOffset)).getD 0
  | .ident | .block _ | .idleblock | .park | .keep => (x.circuit.map (·.echoOffset)).getD 0
  | .unkeyed | .keyup | .filler | .call _ | .rephase | .clear | .bhead _ _ _ | .btext _ | .bend
  | .bbroken | .notice | .pattern => 0

/-- The cycle record is handed to the modem (R2, stage 5; R3). -/
def State.handOver (s : State) (l : LineId) (c : Cycle) : State :=
  s.modLine l fun x =>
    { x with cycle := some { tag := x.nextTag, windowOffset := x.offsetFor c, cycle := c } }

/-! ## LINESTATE -/

/-- A LINESTATE is queued for a station (R20). -/
def State.offerLineState (s : State) (l : LineId) (dest : Station) (m : Mode) (r : OrderResult) : State :=
  s.offerFrame { dest := dest, payload := .lineState l m r }

/-- The answers that wait for a boundary: the silence answer first, then the held order's (R20). -/
def State.answer (s : State) (l : LineId) (m : Mode) (order : Option (Station × OrderResult)) : State :=
  let s1 :=
    match (s.line l).silenceAnswer with
    | none => s
    | some dest =>
      (s.modLine l fun x => { x with silenceAnswer := none }).offerLineState l dest m .accepted
  match order with
  | none => s1
  | some (dest, r) => s1.offerLineState l dest m r

/-! ## A boundary -/

/-- The kind of the cycle that a boundary of a line ends; none before the first boundary (R1). -/
def Line.ended (x : Line) : Option Cycle := x.cycle.map (·.cycle)

/-- The outcome the ended cycle settles with (R6). -/
def Line.settledWith (x : Line) : Option Outcome := x.ended.bind fun c => settledOutcome c x.outcome

/-- The card after the settling stage of a line's boundary (R2, stage 1). -/
def State.settled (s : State) (l : LineId) : State := s.settle l (s.line l).ended (s.line l).settledWith

/-- The card after the per-boundary work of a line's boundary (R2, stage 2). -/
def State.worked (s : State) (l : LineId) : State :=
  (s.settled l).perBoundary l (s.line l).callList (s.line l).ended (s.line l).settledWith

/-- One boundary of a line, stage by stage (R2). The mode a LINESTATE carries is the one that results from
the mode step and the rest check (R20): ACTIVE where the choice then takes the line to REST (log 9).
Reports made pending in the boundary are handed once its choice is made (R144, log 6). -/
def State.boundary (s : State) (l : LineId) : State :=
  let step := (s.worked l).modeStep l
  let s3 := step.1
  let chosen := s3.choice l
  let s4 := chosen.1
  let mode := if (s3.line l).mode = .active then .active else (s4.line l).mode
  ((s4.handReports).answer l mode step.2).handOver l chosen.2

/-- BOUNDARY (R2). The cycle clocks run from the end of the configuration read (R1). -/
def execBoundary (l : LineId) (s : State) : Host.Outcome State Fault Refusal :=
  .next (if s.phase = .settled then s.boundary l else s)

/-- OUTCOME_RECORD (R5, R188). -/
def execOutcomeRecord (l : LineId) (head d1 d2 d3 d4 d5 : Byte) (s : State) :
    Host.Outcome State Fault Refusal :=
  .next (s.modLine l fun x => x.takeOutcome (readTag head) (readOutcome head [d1, d2, d3, d4, d5]))

/-! ## Orders -/

/-- A line order taken (R15). -/
def State.takeOrder (s : State) (l : LineId) (order : LineOrder) (source : Station) : State :=
  if (s.line l).mode = .disabled then s.offerLineState l source .disabled .noLine
  else
    match (s.line l).held with
    | none => s.modLine l fun x => { x with held := some ⟨order, source⟩ }
    | some _ => s.offerLineState l source (s.line l).mode .busy

/-- STOP_LINE (R15, R16). -/
def execStopLine (h : Header) (line : LineId) (s : State) : Host.Outcome State Fault Refusal :=
  .next (s.receive .stopLine h h.source true fun s => s.takeOrder line .stop h.source)

/-- START_LINE (R15, R17). -/
def execStartLine (h : Header) (line : LineId) (s : State) : Host.Outcome State Fault Refusal :=
  .next (s.receive .startLine h h.source true fun s => s.takeOrder line .start h.source)

/-- PATTERN_ON (R15, R18). -/
def execPatternOn (h : Header) (line : LineId) (s : State) : Host.Outcome State Fault Refusal :=
  .next (s.receive .patternOn h h.source true fun s => s.takeOrder line .patternOn h.source)

/-- PATTERN_OFF (R15, R19). -/
def execPatternOff (h : Header) (line : LineId) (s : State) : Host.Outcome State Fault Refusal :=
  .next (s.receive .patternOff h h.source true fun s => s.takeOrder line .patternOff h.source)

/-- A silence order leaves its answer waiting on every line of a band it names that is not DISABLED; a later
order's answer replaces an earlier one's (R13). -/
def State.leaveAnswers (s : State) (mask : BandMask) (source : Station) : State :=
  s.mapLines fun l x =>
    if x.mode ≠ .disabled ∧ mask.getLsbD (s.lineConfig l).band.val then
      { x with silenceAnswer := some source }
    else x

/-- SILENCE (R13). -/
def execSilence (h : Header) (mask : BandMask) (s : State) : Host.Outcome State Fault Refusal :=
  .next (s.receive .silence h h.source true fun s =>
    { s with silenced := s.silenced ||| mask }.leaveAnswers mask h.source)

/-- RESUME (R13). -/
def execResume (h : Header) (mask : BandMask) (s : State) : Host.Outcome State Fault Refusal :=
  .next (s.receive .resume h h.source true fun s =>
    { s with silenced := s.silenced &&& ~~~mask }.leaveAnswers mask h.source)

end Sys2Proof.Machine
end

