-- ==== Sys2Proof/Machine/Start.lean ====
section
/-! DEFINITION. The start unit: pin reset, the configuration read, the start interval, ANNOUNCE with its
conflicts, and RESTART (chapter 11). -/

namespace Sys2Proof.Machine

/-! ## Pin reset and the configuration read -/

/-- The station number the strap pins give: 63 becomes 62 (R178). -/
def clampStrap (pins : Fin 64) : Station := if pins = 63 then 62 else pins

/-- PIN_RESET (R178, R185): everything at its pin reset value, the strap read, and the configuration read
begun. The commands that wait are the outside world's and stay. -/
def execPinReset (pins : Fin 64) (s : State) : Host.Outcome State Fault Refusal :=
  .next { State.reset with pending := s.pending, strap := clampStrap pins }

/-- The card's ANNOUNCE with its current values, addressed to all (R181). -/
def State.offerAnnounce (s : State) (reply restarted : Bool) : State :=
  s.offerFrame { dest := allStations, payload := .announce (s.announcement reply restarted) }

/-- The card with the configuration a read settled: each line in its pin reset mode, and the start interval
begun (R178, R7, R180). -/
def State.settleConfig (s : State) (c : CardConfig) : State :=
  { s with phase := .settled, config := c, startInterval := true
           lines := vecOf 4 fun l =>
             { s.lines[l] with mode := if lineEnabled c l then .rest else .disabled } }

/-- The card after a failed read: FAULT, with every line DISABLED and no configuration in use (R179). -/
def State.settleFault (s : State) : State :=
  { s with phase := .settled, fault := true, config := .blank, startInterval := false
           lines := vecOf 4 fun l => { s.lines[l] with mode := .disabled } }

/-- CONFIGURATION_READ_END (R178). The read ends once; with none in progress there is none to end. -/
def execConfigurationReadEnd (result : ConfigRead) (s : State) : Host.Outcome State Fault Refusal :=
  .next (if s.phase = .reading then
      match settledConfig result with
      | some c => (s.settleConfig c).offerAnnounce false false
      | none => s.settleFault.offerAnnounce false false
    else s)

/-- START_INTERVAL_EXPIRY (R180). -/
def execStartIntervalExpiry (s : State) : Host.Outcome State Fault Refusal :=
  .next { s with startInterval := false }

/-! ## ANNOUNCE: known stations, reply and adoption -/

/-- The known stations after an ANNOUNCE from another station (R181). A set has no order: a station taken
out and added again is in it. -/
def addKnown (known : List Station) (source : Station) : List Station :=
  if known.contains source then known else known ++ [source]

/-- Whether an ANNOUNCE is a start ANNOUNCE (R181). -/
def isStart (a : Announcement) : Bool := !a.reply && !a.restarted

/-- Whether an ANNOUNCE draws a reply (R181). -/
def drawsReply (known : List Station) (source : Station) (a : Announcement) : Bool :=
  isStart a || (a.restarted && !a.reply && !known.contains source)

/-- The known set and the reply (R181). -/
def State.meet (s : State) (source : Station) (a : Announcement) : State :=
  let s' := { s with known := addKnown s.known source }
  if drawsReply s.known source a then s'.offerAnnounce true false else s'

/-- What an ANNOUNCE brings while the start interval runs: its silenced bands, and the clock's first set
(R180). -/
def State.adopt (s : State) (a : Announcement) : State :=
  if s.startInterval then
    let s' := { s with silenced := s.silenced ||| a.silenced }
    if a.timeValid && !s.timeValid then s'.setClock a.minute.val 0 else s'
  else s

/-! ## ANNOUNCE: conflicts -/

/-- Whether a line's channel is among those announced; channel 0 matches none (R182). -/
def State.conflictsOn (s : State) (a : Announcement) (l : LineId) : Bool :=
  decide ((s.lineConfig l).channel ≠ 0) && decide ((s.line l).mode ≠ .disabled)
    && lineIds.any fun m => decide (a.channels[m].val = (s.lineConfig l).channel)

/-- The window state of a line that enters DISABLED by a conflict (R94). -/
def Window.disabled (w : Window) : Window :=
  { w with state := .closed, deferredFor := none, deferredCycles := 0, unitsEnded := false
           noticeStep := 0 }

/-- The immediate UNKEYED record: the tag of the cycle in progress, in the place of its record (R4). -/
def CycleRecord.immediate (r : CycleRecord) : CycleRecord :=
  { tag := r.tag, windowOffset := 0, cycle := .unkeyed }

/-- A line that enters DISABLED by a conflict, its traffic apart (R8, R4, R94, R104). An UNKEYED cycle keeps
no outcome. -/
def Line.disable (x : Line) : Line :=
  { x with
    mode := .disabled, held := none, silenceAnswer := none, keyupCount := 0, fillerRun := 0
    cycle := if x.mode.keyed then x.cycle.map CycleRecord.immediate else x.cycle
    outcome := if x.mode.keyed then none else x.outcome
    window := x.window.disabled
    arbiter := { x.arbiter.endTurn with keepOffered := false } }

/-- A line loses its channel: DISABLED, and a held order answered NO-LINE (R182, R8). -/
def State.loseChannel (s : State) (l : LineId) : State :=
  let s' := s.modLine l Line.disable
  match (s.line l).held with
  | none => s'
  | some h => s'.offerLineState l h.source .disabled .noLine

/-- The receiving line of an entry: of its band, not DISABLED, of least backlog (R130, R183). -/
def State.receivingLine (s : State) (band : Band) : Option LineId :=
  s.leastBacklog (lineIds.filter fun l =>
    decide ((s.lineConfig l).band = band) && decide ((s.line l).mode ≠ .disabled))

/-- The records of some messages are placed on a line (R149). -/
def State.setRecordLines (s : State) (l : LineId) (messages : List Slot) : State :=
  messages.foldl
    (fun t i => t.modRecord i fun r => r.modTelex fun x => { x with line := some l }) s

/-- One entry of a lost line, an empty one too, joins the tail of a receiving line's call list; where the band
has none it is freed and its messages are returned (R183, R130). -/
def State.moveEntry (s : State) (e : Entry) : State :=
  match s.receivingLine e.band with
  | some l =>
    (s.modLine l fun x => { x with callList := x.callList ++ [{ e with recalled := false }] }
      ).setRecordLines l e.messages
  | none => s.returnMessages .conflict e.messages

/-- The entries of a lost line leave it, in call-list order (R183). -/
def State.moveEntries (s : State) (l : LineId) : State :=
  (s.line l).callList.foldl State.moveEntry (s.modLine l fun x => { x with callList := [] })

/-- A lost line gives its traffic up: circuit, entries, bulletin parts (R183), the records of the parts in slot
order (log 14, log 22). -/
def State.giveUpTraffic (s : State) (l : LineId) : State :=
  slots.foldl (fun t i => t.conflictPart l i) ((s.loseCircuit l false).moveEntries l)

/-- The conflict check of one line against an ANNOUNCE of a lower station (R182). -/
def State.checkConflict (s : State) (a : Announcement) (l : LineId) : State :=
  if s.conflictsOn a l then (s.loseChannel l).giveUpTraffic l else s

/-- The conflicts of an ANNOUNCE, in line-number order (R182). -/
def State.conflicts (s : State) (source : Station) (a : Announcement) : State :=
  if source < s.strap then lineIds.foldl (fun t l => t.checkConflict a l) s else s

/-- An ANNOUNCE taken by the start unit: ignored in FAULT and as the card's own echo; else the known set and
the reply, the adoption, and the conflicts, with the reports they make (R179 to R183). -/
def State.takeAnnounce (s : State) (source : Station) (a : Announcement) : State :=
  if s.fault ∨ source = s.strap then s
  else (((s.meet source a).adopt a).conflicts source a).handReports

/-- ANNOUNCE (R181). -/
def execAnnounce (h : Header) (a : Announcement) (s : State) : Host.Outcome State Fault Refusal :=
  .next (s.receive .announce h h.source true fun s => s.takeAnnounce h.source a)

/-! ## RESTART -/

/-- RESTART in the message store, for one slot (R150). -/
def State.restartRecord (s : State) (i : Slot) : State :=
  match s.record i with
  | none => s
  | some r =>
    match r.state with
    | .claiming => (s.returnPages i).setRecord i none
    | .loading | .ready | .onAir =>
      (((s.endWork i).discardBsents i).addReport i (.returned .restart)).modRecord i fun r =>
        r.modBulletin fun b => { b with parts := [] }
    | .reporting =>
      ((s.discardBsents i).modRecord i fun r => r.modBulletin fun b => { b with parts := [] }
        ).freeIfSpent i

/-- A line after RESTART (R22, R50, R87, R94, R104, R131): its record and tag stay. -/
def Line.restarted (x : Line) (silenced : Bool) : Line :=
  { Line.reset with
    mode := if x.mode = .disabled then .disabled else if silenced then .silent else .rest
    cycle := x.cycle }

/-- The card cleared by RESTART, before its ANNOUNCE (R184). The records are taken in slot order: so do their
RETURNED reports join the report list (R150), and their pages the free list (DESIGN CHOICE, log 22). -/
def State.restarted (s : State) : State :=
  let s1 := slots.foldl State.restartRecord s
  { s1 with
    claims := [], counters := .zero
    marks := Vector.replicate 4 (Vector.replicate 8 false)
    lines := vecOf 4 fun l => s1.lines[l].restarted (s1.silencedLine l) }

/-- RESTART (R184). -/
def execRestart (h : Header) (s : State) : Host.Outcome State Fault Refusal :=
  .next (s.receive .restart h h.source true fun s =>
    s.restarted.handReports.offerAnnounce false true)

end Sys2Proof.Machine
end

