-- ==== Sys2Proof/Machine/Dispatch.lean ====
section
/-! DEFINITION. The meaning of each command: one arm for each row of the table, one direct call each. -/

namespace Sys2Proof.Machine

def exec (i : Instr) (s : State) : Host.Outcome State Fault Refusal :=
  match i with
  | .pinReset pins => Sys2Proof.Machine.execPinReset pins s
  | .configurationReadEnd result => Sys2Proof.Machine.execConfigurationReadEnd result s
  | .startIntervalExpiry => Sys2Proof.Machine.execStartIntervalExpiry s
  | .boundary line => Sys2Proof.Machine.execBoundary line s
  | .outcomeRecord line head d1 d2 d3 d4 d5 => Sys2Proof.Machine.execOutcomeRecord line head d1 d2 d3 d4 d5 s
  | .secondTimerExpiry => Sys2Proof.Machine.execSecondTimerExpiry s
  | .time h minute second => Sys2Proof.Machine.execTime h minute second s
  | .loadTimerExpiry key => Sys2Proof.Machine.execLoadTimerExpiry key s
  | .claimWindowExpiry key => Sys2Proof.Machine.execClaimWindowExpiry key s
  | .offer h number ship n band clearAfter => Sys2Proof.Machine.execOffer h number ship n band clearAfter s
  | .claim h key grade => Sys2Proof.Machine.execClaim h key grade s
  | .takeReceived h key => Sys2Proof.Machine.execTakeReceived h key s
  | .text h key seq chunk => Sys2Proof.Machine.execText h key seq chunk s
  | .post h number cls n channels => Sys2Proof.Machine.execPost h number cls n channels s
  | .withdraw h key => Sys2Proof.Machine.execWithdraw h key s
  | .silence h mask => Sys2Proof.Machine.execSilence h mask s
  | .resume h mask => Sys2Proof.Machine.execResume h mask s
  | .stopLine h line => Sys2Proof.Machine.execStopLine h line s
  | .startLine h line => Sys2Proof.Machine.execStartLine h line s
  | .patternOn h line => Sys2Proof.Machine.execPatternOn h line s
  | .patternOff h line => Sys2Proof.Machine.execPatternOff h line s
  | .restart h => Sys2Proof.Machine.execRestart h s
  | .announce h a => Sys2Proof.Machine.execAnnounce h a s
  | .statusQuery h selector => Sys2Proof.Machine.execStatusQuery h selector s
  | .badFrame check => Sys2Proof.Machine.execBadFrame check s
  | .ignoredFrame h kind => Sys2Proof.Machine.execIgnoredFrame h kind s
  | .contention => Sys2Proof.Machine.execContention s
  | .contentionLost => Sys2Proof.Machine.execContentionLost s
  | .sendingCutShort => Sys2Proof.Machine.execSendingCutShort s
  | .sendingComplete => Sys2Proof.Machine.execSendingComplete s
  | .reportHanded => Sys2Proof.Machine.execReportHanded s

end Sys2Proof.Machine
end

