-- ==== Sys2Proof/WellFormed.lean ====
section
/-! DEFINITION. Which commands are events the manual describes: the operands that a frame of that kind,
a configuration image or an ignored frame can carry. An ill-formed command is no event of the card
(a frame with such operands is a BAD_FRAME, R168, or is taken, R169). -/

namespace Sys2Proof

/-- A frame whose source is 63 fails check 4 of R168, so no command but BAD_FRAME comes from it. -/
def Header.wellFormed (h : Header) : Bool := h.source != allStations

/-- The kinds the card sends and does not act on (R169): ignored at every destination. -/
def FrameKind.sentOnly : FrameKind → Bool
  | .delivered | .returned | .refused | .withdrawn | .bsent | .lineState | .status => true
  | _ => false

/-- The kinds taken at any destination (R169). -/
def FrameKind.takenAnywhere : FrameKind → Bool
  | .claim | .take | .text | .announce => true
  | _ => false

/-- The kinds taken at the card's own station alone (R169). -/
def FrameKind.takenAtOwn : FrameKind → Bool
  | .statusQuery | .restart => true
  | _ => false

/-- A frame that some station's check 5 ignores: a kind sent only, or an addressed kind at a
destination that can be another station's, or 63 for a kind taken at the own station alone. -/
def ignorable (h : Header) (k : FrameKind) : Bool :=
  k.sentOnly || (!k.takenAnywhere && (k.takenAtOwn || h.dest != allStations))

/-- The payload lengths of chapter 12 for TEXT and POST, and its image size, as tests on operands. -/
def Instr.wellFormed : Instr → Bool
  | .pinReset _ => true
  | .configurationReadEnd (.image bytes) => bytes.length == 339
  | .configurationReadEnd .noAnswer => true
  | .configurationReadEnd .incomplete => true
  | .startIntervalExpiry => true
  | .boundary _ => true
  | .outcomeRecord _ _ _ _ _ _ _ => true
  | .secondTimerExpiry => true
  | .time h _ _ => h.wellFormed
  | .loadTimerExpiry _ => true
  | .claimWindowExpiry _ => true
  | .offer h _ _ _ _ _ => h.wellFormed
  | .claim h _ _ => h.wellFormed
  | .takeReceived h _ => h.wellFormed
  | .text h _ _ chunk => h.wellFormed && (1 ≤ chunk.length && chunk.length ≤ 48)
  | .post h _ _ _ channels => h.wellFormed && (1 ≤ channels.length && channels.length ≤ 8)
  | .withdraw h _ => h.wellFormed
  | .silence h _ => h.wellFormed
  | .resume h _ => h.wellFormed
  | .stopLine h _ => h.wellFormed
  | .startLine h _ => h.wellFormed
  | .patternOn h _ => h.wellFormed
  | .patternOff h _ => h.wellFormed
  | .restart h => h.wellFormed
  | .announce h _ => h.wellFormed
  | .statusQuery h _ => h.wellFormed
  | .badFrame _ => true
  | .ignoredFrame h k => h.wellFormed && ignorable h k
  | .contention => true
  | .contentionLost => true
  | .sendingCutShort => true
  | .sendingComplete => true
  | .reportHanded => true

end Sys2Proof
end

