-- ==== Sys2Proof/Machine/Wire.lean ====
section
/-! DEFINITION. The office bus frame on the wire (chapter 12): the bits of each frame the card sends, the bits
of a frame that brings a command, and the command, BAD_FRAME or IGNORED_FRAME that received bits are
(R168, R186, R187). -/

namespace Sys2Proof.Machine

/-! ## Frame kinds -/

/-- The kind code of chapter 12. -/
def kindCode : FrameKind → Nat
  | .offer => 1 | .claim => 2 | .take => 3 | .text => 4 | .post => 5 | .withdraw => 6
  | .delivered => 7 | .returned => 8 | .refused => 9 | .withdrawn => 10 | .bsent => 11
  | .silence => 12 | .resume => 13 | .stopLine => 14 | .startLine => 15 | .patternOn => 16
  | .patternOff => 17 | .restart => 18 | .time => 19 | .announce => 20 | .lineState => 21
  | .statusQuery => 22 | .status => 23

/-- The kind a code names; codes 0 and 24–31 are unknown (chapter 12). -/
def kindOfCode : Nat → Option FrameKind
  | 1 => some .offer | 2 => some .claim | 3 => some .take | 4 => some .text | 5 => some .post
  | 6 => some .withdraw | 7 => some .delivered | 8 => some .returned | 9 => some .refused
  | 10 => some .withdrawn | 11 => some .bsent | 12 => some .silence | 13 => some .resume
  | 14 => some .stopLine | 15 => some .startLine | 16 => some .patternOn | 17 => some .patternOff
  | 18 => some .restart | 19 => some .time | 20 => some .announce | 21 => some .lineState
  | 22 => some .statusQuery | 23 => some .status
  | _ => none

/-- The payload lengths listed for a kind (chapter 12, check 3 of R168). -/
def lengthListed : FrameKind → Nat → Bool
  | .offer, n => n = 8
  | .claim, n | .returned, n | .refused, n | .withdrawn, n => n = 4
  | .take, n | .withdraw, n | .delivered, n | .time, n | .lineState, n => n = 3
  | .text, n => decide (5 ≤ n) && decide (n ≤ 52)
  | .post, n => decide (7 ≤ n) && decide (n ≤ 21) && decide (n % 2 = 1)
  | .bsent, n => n = 6
  | .silence, n | .resume, n | .stopLine, n | .startLine, n | .patternOn, n | .patternOff, n
  | .statusQuery, n => n = 1
  | .restart, n => n = 0
  | .announce, n => n = 12
  | .status, n => n = 19 || n = 28

/-! ## Fields -/

/-- The two bytes of MN or CH. -/
def pairBytes (v : Nat) : List Byte := bigEndian 2 v

/-- KEY (chapter 12). -/
def keyBytes (k : Key) : List Byte := BitVec.ofNat 8 k.station.val :: pairBytes k.number.val

/-- KEY, read at the head of a payload. -/
def readKey (p : List Byte) : Key :=
  ⟨Fin.ofNat 64 (imageByte p 0), Fin.ofNat 4096 (imagePair p 1)⟩

/-- The flags of an ANNOUNCE, in byte 0. -/
def announceFlags (a : Announcement) : Nat :=
  a.fault.toNat + 2 * a.timeValid.toNat + 4 * a.reply.toNat + 8 * a.restarted.toNat

/-- The payload of an ANNOUNCE. -/
def announceBytes (a : Announcement) : List Byte :=
  BitVec.ofNat 8 (announceFlags a) :: (lineIds.flatMap fun l => pairBytes a.channels[l].val)
    ++ pairBytes a.minute.val ++ [a.silenced]

/-- The content of an ANNOUNCE payload. -/
def readAnnouncement (p : List Byte) : Announcement :=
  { fault := (imageByte p 0).testBit 0, timeValid := (imageByte p 0).testBit 1
    reply := (imageByte p 0).testBit 2, restarted := (imageByte p 0).testBit 3
    channels := vecOf 4 fun l => Fin.ofNat 1024 (imagePair p (1 + 2 * l.val))
    minute := Fin.ofNat 2048 (imagePair p 9), silenced := BitVec.ofNat 8 (imageByte p 11) }

/-! ## The payloads the card sends -/

def modeCode : Mode → Nat
  | .disabled => 0 | .stopped => 1 | .rest => 2 | .keying => 3 | .active => 4 | .silent => 5
  | .pattern => 6

/-- The circuit state code; 0 is NONE. -/
def circuitCode : Option CircuitState → Nat
  | none => 0
  | some .calling => 1 | some .aligning => 2 | some .identifying => 3 | some .linked => 4
  | some .parked => 5 | some .rephasing => 6 | some .clearing => 7

def resultCode : OrderResult → Nat
  | .accepted => 0 | .busy => 1 | .noLine => 2

def reasonCode : Reason → Nat
  | .noAnswer => 1 | .wrongStation => 2 | .lost => 3 | .restart => 4 | .conflict => 5 | .rank => 6
  | .range => 7 | .closed => 8 | .storeFull => 9 | .textGap => 10 | .textTimeout => 11

/-- remaining 0–8, or 15 for a standing part. -/
def remainingCode : Remaining → Nat
  | .times n => n
  | .standing => 15

/-- The 19 bytes of a card STATUS. -/
def cardStatusBytes (c : CardStatus) : List Byte :=
  bigEndian 1 4 ++ bigEndian 1 (c.fault.toNat + 2 * c.timeValid.toNat) ++ pairBytes c.badFrames
    ++ pairBytes c.rankRefused ++ pairBytes c.framesDiscarded ++ pairBytes c.claimsWon
    ++ pairBytes c.claimsLost ++ bigEndian 1 c.freeSlots ++ pairBytes c.freePages
    ++ bigEndian 1 c.openWindows ++ [c.silenced] ++ pairBytes c.minute

/-- The eight counters of a line STATUS. -/
def counterBytes (c : LineCounters) : List Byte :=
  pairBytes c.blocksSent ++ pairBytes c.repeats ++ pairBytes c.circuitsLinked
    ++ pairBytes c.circuitsLost ++ pairBytes c.callsFailed ++ pairBytes c.bulletinSendings
    ++ pairBytes c.keepsSent ++ pairBytes c.windowsAbsorbed

/-- The 28 bytes of a line STATUS. -/
def lineStatusBytes (x : LineStatus) : List Byte :=
  bigEndian 1 x.line.val ++ bigEndian 1 (modeCode x.mode) ++ bigEndian 1 (circuitCode x.circuit)
    ++ bigEndian 3 x.ship ++ bigEndian 1 x.q
    ++ pairBytes (x.lastEst + 32768 * x.estSaturated.toNat)
    ++ bigEndian 1 x.cutInLength ++ bigEndian 1 x.windowLength ++ bigEndian 1 x.freeLength
    ++ counterBytes x.counters

/-- The kind of a frame the card sends. -/
def Payload.kind : Payload → FrameKind
  | .claim _ _ => .claim
  | .take _ => .take
  | .delivered _ => .delivered
  | .returned _ _ => .returned
  | .refused _ _ => .refused
  | .withdrawn _ _ => .withdrawn
  | .bsent _ _ _ => .bsent
  | .announce _ => .announce
  | .lineState _ _ _ => .lineState
  | .cardStatus _ | .lineStatus _ => .status

/-- The payload bytes of a frame the card sends; reserved bits are 0 (R187). -/
def Payload.bytes : Payload → List Byte
  | .claim k grade => keyBytes k ++ bigEndian 1 grade.val
  | .take k | .delivered k => keyBytes k
  | .returned k reason | .refused k reason => keyBytes k ++ bigEndian 1 (reasonCode reason)
  | .withdrawn k cut => keyBytes k ++ bigEndian 1 cut.toNat
  | .bsent k channel rem => keyBytes k ++ pairBytes channel ++ bigEndian 1 (remainingCode rem)
  | .announce a => announceBytes a
  | .lineState l m r => bigEndian 1 l.val ++ bigEndian 1 (modeCode m) ++ bigEndian 1 (resultCode r)
  | .cardStatus c => cardStatusBytes c
  | .lineStatus x => lineStatusBytes x

/-! ## Frames as bits -/

/-- Fields 1 to 6 of a frame, in the order sent. -/
def bodyBits (precedence source kind dest : Nat) (payload : List Byte) : List Bool :=
  bitsOf 3 precedence ++ bitsOf 6 source ++ bitsOf 5 kind ++ bitsOf 6 dest
    ++ bitsOf 6 payload.length ++ byteBits payload

/-- A frame with its CRC (R186). -/
def frameBits (precedence source kind dest : Nat) (payload : List Byte) : List Bool :=
  bodyBits precedence source kind dest payload
    ++ bitsOf 16 (crc16 (bodyBits precedence source kind dest payload))

/-- A frame of the card's on the wire: its own station is the source (R186). -/
def Frame.bits (own : Station) (f : Frame) : List Bool :=
  frameBits f.payload.precedence own.val (kindCode f.payload.kind) f.dest.val f.payload.bytes

/-- The contention value at the head of a frame: precedence, then source (R166). -/
def contentionBits (precedence source : Nat) : List Bool := bitsOf 3 precedence ++ bitsOf 6 source

/-- A number read from bits at an offset. -/
def fieldAt (bits : List Bool) (offset width : Nat) : Nat := bitsToNat 0 ((bits.drop offset).take width)

/-- `count` bytes read from bits at an offset. -/
def bytesAt (bits : List Bool) (offset count : Nat) : List Byte :=
  (List.range count).map fun i => BitVec.ofNat 8 (fieldAt bits (offset + 8 * i) 8)

/-! ## Reception -/

/-- CH fields of a POST, from offset 5 on. -/
def readChannels (p : List Byte) : List (Fin 1024) :=
  (List.range ((p.length - 5) / 2)).map fun j => Fin.ofNat 1024 (imagePair p (5 + 2 * j))

/-- The line of a line order, bits 1–0. -/
def readLineNumber (p : List Byte) : LineId := Fin.ofNat 4 (imageByte p 0)

/-- The command a frame of a kind brings, its payload read by chapter 12 with reserved bits ignored
(R187). -/
def commandOf (k : FrameKind) (h : Header) (p : List Byte) : Instr :=
  match k with
  | .offer =>
    .offer h (Fin.ofNat 4096 (imagePair p 0))
      (Fin.ofNat 131072 (65536 * imageByte p 2 + imagePair p 3)) (Fin.ofNat 8192 (imagePair p 5))
      (Fin.ofNat 8 (imageByte p 7)) ((imageByte p 7).testBit 3)
  | .claim => .claim h (readKey p) (Fin.ofNat 4 (imageByte p 3))
  | .take => .takeReceived h (readKey p)
  | .text => .text h (readKey p) (Fin.ofNat 256 (imageByte p 3)) (p.drop 4)
  | .post =>
    .post h (Fin.ofNat 4096 (imagePair p 0)) (Fin.ofNat 16 (imageByte p 2))
      (Fin.ofNat 8192 (imagePair p 3)) (readChannels p)
  | .withdraw => .withdraw h (readKey p)
  | .silence => .silence h (BitVec.ofNat 8 (imageByte p 0))
  | .resume => .resume h (BitVec.ofNat 8 (imageByte p 0))
  | .stopLine => .stopLine h (readLineNumber p)
  | .startLine => .startLine h (readLineNumber p)
  | .patternOn => .patternOn h (readLineNumber p)
  | .patternOff => .patternOff h (readLineNumber p)
  | .restart => .restart h
  | .time => .time h (Fin.ofNat 2048 (imagePair p 0)) (Fin.ofNat 64 (imageByte p 2))
  | .announce => .announce h (readAnnouncement p)
  | .statusQuery => .statusQuery h (Fin.ofNat 256 (imageByte p 0))
  | .delivered | .returned | .refused | .withdrawn | .bsent | .lineState | .status =>
    .ignoredFrame h k

/-- Checks 2 to 4 on a frame whose CRC matches, and the command of a frame that passes them (R168). -/
def checkedFrame (source : Station) (kind : Nat) (dest : Station) (p : List Byte) : Instr :=
  match kindOfCode kind with
  | none => .badFrame .kind
  | some k =>
    if !lengthListed k p.length then .badFrame .length
    else if source = allStations then .badFrame .source
    else commandOf k ⟨source, dest⟩ p

/-- What the receive half makes of the bits of a frame (R168, R186): check 1 reads the length field, takes
that many payload bytes and 16 CRC bits, and fails where the bits end before that or the CRC does not
match. -/
def heard (bits : List Bool) : Instr :=
  let n := fieldAt bits 20 6
  let size := 26 + 8 * n
  if bits.length < size + 16 then .badFrame .crc
  else if crc16 (bits.take size) ≠ fieldAt bits size 16 then .badFrame .crc
  else
    checkedFrame (Fin.ofNat 64 (fieldAt bits 3 6)) (fieldAt bits 9 5) (Fin.ofNat 64 (fieldAt bits 14 6))
      (bytesAt bits 26 n)

/-! ## The frames that bring commands -/

/-- The kind, header and payload of the frame that brings a command; none for a command that no frame of a
kind the card acts on brings. -/
def frameOf : Instr → Option (FrameKind × Header × List Byte)
  | .offer h number ship n band clearAfter =>
    some (.offer, h, pairBytes number.val ++ bigEndian 3 ship.val ++ pairBytes n.val
      ++ bigEndian 1 (band.val + 8 * clearAfter.toNat))
  | .claim h key grade => some (.claim, h, keyBytes key ++ bigEndian 1 grade.val)
  | .takeReceived h key => some (.take, h, keyBytes key)
  | .text h key seq chunk => some (.text, h, keyBytes key ++ bigEndian 1 seq.val ++ chunk)
  | .post h number cls n channels =>
    some (.post, h, pairBytes number.val ++ bigEndian 1 cls.val ++ pairBytes n.val
      ++ channels.flatMap fun c => pairBytes c.val)
  | .withdraw h key => some (.withdraw, h, keyBytes key)
  | .silence h mask => some (.silence, h, [mask])
  | .resume h mask => some (.resume, h, [mask])
  | .stopLine h line => some (.stopLine, h, bigEndian 1 line.val)
  | .startLine h line => some (.startLine, h, bigEndian 1 line.val)
  | .patternOn h line => some (.patternOn, h, bigEndian 1 line.val)
  | .patternOff h line => some (.patternOff, h, bigEndian 1 line.val)
  | .restart h => some (.restart, h, [])
  | .time h minute second => some (.time, h, pairBytes minute.val ++ bigEndian 1 second.val)
  | .announce h a => some (.announce, h, announceBytes a)
  | .statusQuery h selector => some (.statusQuery, h, bigEndian 1 selector.val)
  | .pinReset _ | .configurationReadEnd _ | .startIntervalExpiry | .boundary _
  | .outcomeRecord _ _ _ _ _ _ _ | .secondTimerExpiry | .loadTimerExpiry _ | .claimWindowExpiry _
  | .badFrame _ | .ignoredFrame _ _ | .contention | .contentionLost | .sendingCutShort
  | .sendingComplete | .reportHanded => none

/-- The bits of the frame that brings a command, at a precedence. -/
def commandBits (precedence : Nat) (i : Instr) : Option (List Bool) :=
  (frameOf i).map fun f => frameBits precedence f.2.1.source.val (kindCode f.1) f.2.1.dest.val f.2.2

end Sys2Proof.Machine
end

