-- ==== Sys2Proof/Safety.lean ====
section
/-! DEFINITION. What a safe state of the card is, in the terms the claims use: the bounds and the conservation
laws the manual states over the whole card, each as a predicate of a state. -/

namespace Sys2Proof.Machine

/-- The transmit queue holds up to 24 frames (R172). -/
def State.queueBounded (s : State) : Prop := s.queue.length ≤ Config.queueLimit

/-- At most 8 claim windows are open (R156). -/
def State.claimsBounded (s : State) : Prop := s.claims.length ≤ Config.claimLimit

/-- The counters of a line are within 0–65535 (R131). -/
def LineCounters.bounded (c : LineCounters) : Prop :=
  c.blocksSent ≤ Config.counterLimit ∧ c.repeats ≤ Config.counterLimit
    ∧ c.circuitsLinked ≤ Config.counterLimit ∧ c.circuitsLost ≤ Config.counterLimit
    ∧ c.callsFailed ≤ Config.counterLimit ∧ c.bulletinSendings ≤ Config.counterLimit
    ∧ c.keepsSent ≤ Config.counterLimit ∧ c.windowsAbsorbed ≤ Config.counterLimit

/-- The card counters are within 0–65535 (R131). -/
def CardCounters.bounded (c : CardCounters) : Prop :=
  c.badFrames ≤ Config.counterLimit ∧ c.rankRefused ≤ Config.counterLimit
    ∧ c.framesDiscarded ≤ Config.counterLimit ∧ c.claimsWon ≤ Config.counterLimit
    ∧ c.claimsLost ≤ Config.counterLimit

/-- No counter of a line is lower in the second than in the first. -/
def LineCounters.le (c d : LineCounters) : Prop :=
  c.blocksSent ≤ d.blocksSent ∧ c.repeats ≤ d.repeats ∧ c.circuitsLinked ≤ d.circuitsLinked
    ∧ c.circuitsLost ≤ d.circuitsLost ∧ c.callsFailed ≤ d.callsFailed
    ∧ c.bulletinSendings ≤ d.bulletinSendings ∧ c.keepsSent ≤ d.keepsSent
    ∧ c.windowsAbsorbed ≤ d.windowsAbsorbed

/-- No card counter is lower in the second than in the first. -/
def CardCounters.le (c d : CardCounters) : Prop :=
  c.badFrames ≤ d.badFrames ∧ c.rankRefused ≤ d.rankRefused ∧ c.framesDiscarded ≤ d.framesDiscarded
    ∧ c.claimsWon ≤ d.claimsWon ∧ c.claimsLost ≤ d.claimsLost

/-- Every counter of the card is within 0–65535 (R131). -/
def State.countersBounded (s : State) : Prop :=
  s.counters.bounded ∧ ∀ l : LineId, (s.line l).counters.bounded

/-- The text memory stands in its canonical form. -/
def State.textCanonical (s : State) : Prop := Memory.wf s.text = true

/-- The pages a slot's record holds, page-list and reserved (R135). -/
def State.pagesOf (s : State) (i : Slot) : List PageId :=
  match s.record i with
  | none => []
  | some r => r.pageList ++ r.reserved

/-- The pages all records hold, in slot order. -/
def State.heldPages (s : State) : List PageId := slots.flatMap s.pagesOf

/-- A record in REPORTING holds no pages (R137). -/
def State.reportingEmpty (s : State) : Prop :=
  ∀ i r, s.record i = some r → r.state = .reporting → r.pageList = [] ∧ r.reserved = []

/-- Each of the 2048 pages is in exactly one place: the free list, or one record's page-list or reserved
pages (R135). -/
def State.pagesConserved (s : State) : Prop :=
  (s.freePages ++ s.heldPages).Perm (List.finRange 2048)

/-- The configuration of a line is within the limits of R178. -/
def lineInRange (c : LineConfig) : Prop :=
  c.channel ≤ 999 ∧ c.q0 ≤ 255 ∧ c.grace ≤ 255 ∧ c.linger ≤ 60 ∧ 8 ≤ c.parkLimit ∧ c.parkLimit ≤ 60
    ∧ 1 ≤ c.turn ∧ c.turn ≤ 16

/-- A class entry is within the limits of R63: REPEATS at most 8, and not 0 on a CUT-IN entry. -/
def classInRange (e : ClassEntry) : Prop :=
  e.repeats ≤ 8 ∧ (e.kind = .cutIn → 1 ≤ e.repeats)

/-- The configuration is within the limits of R63 and R178. -/
def State.configInRange (s : State) : Prop :=
  (1 ≤ s.config.classCount ∧ s.config.classCount ≤ 16)
    ∧ (∀ l : LineId, lineInRange (s.lineConfig l))
    ∧ ∀ j : Fin 16, classInRange s.config.classes[j]

/-- Whether a line is in one of the modes the law of R13 names. -/
def Mode.heldSilent : Mode → Bool
  | .silent | .stopped | .disabled => true
  | .rest | .keying | .active | .pattern => false

/-! ## Laws over the whole card -/

/-- The transmit queue as R172 orders it, lowest precedence first, with at most one frame on the wire. -/
def State.queueOrdered (s : State) : Prop :=
  s.queue.Pairwise (fun a b => a.precedence ≤ b.precedence) ∧ (s.queue.filter (·.onWire)).length ≤ 1

/-- A report waits only while the transmit queue holds more than 16 frames (R144). -/
def State.reportsHanded (s : State) : Prop :=
  s.reports = [] ∨ Config.reportLimit < s.queue.length

/-- A key is held by at most one record (R132). -/
def State.keysDistinct (s : State) : Prop :=
  ∀ i j r r', s.record i = some r → s.record j = some r' → r.key = r'.key → i = j

/-- The ship numbers of all entries of the card, line by line. -/
def State.shipsHeld (s : State) : List Nat := lineIds.flatMap fun l => (s.line l).callList.map (·.ship)

/-- The law of R25: a ship number stands in at most one entry of the card, a circuit's ship has its entry on
the circuit's own line, and the entries in use are within the pool. -/
def State.shipsOnce (s : State) : Prop :=
  s.shipsHeld.Nodup
    ∧ (∀ l c, (s.line l).circuit = some c → ∃ e ∈ (s.line l).callList, e.ship = c.ship)
    ∧ s.entriesUsed ≤ Config.entryPool

/-- The law of R25 and R133 over the telex messages: every message of an entry is once in it and has a telex
record that names the entry's line and ship and is LOADING, READY or ON-AIR; a circuit's current message is
an ON-AIR message of the circuit's entry; every claim window has its CLAIMING record (R156). -/
def State.messagesPlaced (s : State) : Prop :=
  (∀ l : LineId, ∀ e ∈ (s.line l).callList, e.messages.Nodup ∧ ∀ i ∈ e.messages,
      ∃ r x, s.record i = some r ∧ r.body = .telex x ∧ x.line = some l ∧ x.ship = e.ship
        ∧ (r.state = .loading ∨ r.state = .ready ∨ r.state = .onAir))
    ∧ (∀ (l : LineId) c i, (s.line l).circuit = some c → c.current = some i →
      s.isOnAir i = true ∧ (c.state = .linked ∨ c.state = .parked ∨ c.state = .rephasing)
        ∧ ∃ e ∈ (s.line l).callList, e.ship = c.ship ∧ i ∈ e.messages)
    ∧ ∀ w ∈ s.claims, ∃ r x, s.record w.slot = some r ∧ r.key = w.key ∧ r.state = .claiming
      ∧ r.body = .telex x ∧ x.line = none

/-- Every report waits for a record that is held: one in REPORTING, or a bulletin's (R143, R145). -/
def State.reportsOwned (s : State) : Prop :=
  ∀ p ∈ s.reports, ∃ r, s.record p.slot = some r
    ∧ (r.state = .reporting ∨ (r.state ≠ .claiming ∧ ∃ b, r.body = .bulletin b))

/-- A record in CLAIMING is a TELEX record (R134). -/
def State.claimingTelex (s : State) : Prop :=
  ∀ i r, s.record i = some r → r.state = .claiming → ∃ x, r.body = .telex x

/-- The slots in a line's three bulletin queues (R69). -/
def Line.bulletinSlots (x : Line) : List Slot := x.cutInQueue ++ x.windowQueue ++ x.freeQueue

/-- The law of R71: at most one part in a line's bulletin queues is ON-AIR. -/
def State.onePartOnAir (s : State) : Prop :=
  ∀ l : LineId, ∀ i ∈ (s.line l).bulletinSlots, ∀ j ∈ (s.line l).bulletinSlots,
    s.partOnAir l i = true → s.partOnAir l j = true → i = j

/-- The counts of a circuit record within the ranges R23 gives them. A count of operation cycles stands at its
limit only while the last such cycle is in progress. -/
def Circuit.countsInRange (c : Circuit) (cycle : Option Cycle) : Prop :=
  (c.failRun ≤ 4 ∧ (c.state ≠ .rephasing → c.failRun ≤ 3))
    ∧ (c.rephaseCount ≤ 3 ∧ (c.state = .rephasing → c.rephaseCount ≤ 2)) ∧ c.rephaseCycles ≤ 2
    ∧ (c.callCycles ≤ 10 ∧ (c.state = .calling → c.callCycles = 10 → ∃ ship, cycle = some (.call ship)))
    ∧ (c.identTries ≤ 2 ∧ (c.state = .identifying → c.identTries = 2 → cycle = some .ident))
    ∧ (c.clearCycles ≤ 2 ∧ (c.state = .clearing → c.clearCycles = 2 → cycle = some .clear))

/-- The fields of a circuit record within the ranges R23 gives them, on a line with its configuration: q, k,
the two offsets, silence-count below PARK-LIMIT (R53), linger-count up to LINGER (R40), and the counts. -/
def Circuit.inRange (c : Circuit) (config : LineConfig) (cycle : Option Cycle) : Prop :=
  c.q ≤ 255 ∧ c.k ≤ 7 ∧ c.echoOffset ≤ 44 ∧ c.trialOffset ≤ 44 ∧ c.echoOffset % 4 = 0
    ∧ c.trialOffset % 4 = 0 ∧ c.silenceCount < config.parkLimit ∧ c.lingerCount ≤ config.linger
    ∧ c.countsInRange cycle

/-- The window state of a line within the ranges of R94: last-est, deferred-cycles, and notice-step, which
stands at 4 only while the fourth NOTICE is in progress. -/
def Window.inRange (w : Window) (cycle : Option Cycle) : Prop :=
  w.lastEst ≤ 4095 ∧ (w.deferredCycles ≤ 255 ∧ (w.state = .openDeferred → w.deferredCycles < 255))
    ∧ (w.noticeStep ≤ 4 ∧ (w.noticeStep = 4 → cycle = some .notice))

/-- The fields of a line within their ranges: filler-run (R12), keyup-count (R11), the window state (R94),
turn-cycles (R104), the circuit (R23), and the attempts and retry-hold of its entries (R25). -/
def Line.inRange (x : Line) (config : LineConfig) : Prop :=
  x.fillerRun ≤ 8 ∧ x.keyupCount ≤ 2 ∧ x.window.inRange x.ended ∧ x.arbiter.turnCycles ≤ 16
    ∧ (∀ c, x.circuit = some c → c.inRange config x.ended)
    ∧ ∀ e ∈ x.callList, e.attempts < Config.attemptLimit ∧ e.retryHold ≤ Config.retryHold

/-- Every line is within its ranges, and so is the configuration they follow from; no line has a circuit before
a configuration is read. -/
def State.linesInRange (s : State) : Prop :=
  s.configInRange ∧ (s.phase = .reading → ∀ l : LineId, (s.line l).circuit = none)
    ∧ ∀ l : LineId, (s.line l).inRange (s.lineConfig l)

/-- The law of R13: a line whose band is in the silenced set is SILENT, STOPPED or DISABLED; the set is empty
until the configuration read has ended. -/
def State.silenceHeld (s : State) : Prop :=
  (s.phase = .reading → s.silenced = 0)
    ∧ ∀ l : LineId, s.silencedLine l = true → (s.line l).mode.heldSilent = true

/-! ## What the statements compare -/

/-- A line without its call list and its bulletin queues. -/
def Line.bare (x : Line) : Line :=
  { x with callList := [], cutInQueue := [], windowQueue := [], freeQueue := [] }

/-- A line that takes an opening (R95). -/
def Line.opened (x : Line) : Line :=
  if x.mode = .disabled then x
  else if x.window.state = .closed then { x with window := { x.window with state := .pending } }
  else { x with counters := { x.counters with windowsAbsorbed := bump x.counters.windowsAbsorbed } }

/-- The telex message in a slot has left its entry on its line; every other entry, every other call list and
every bulletin queue stand as they were (R28). -/
def leftEntry (s t : State) (i : Slot) (x : Telex) : Prop :=
  (∀ l, x.line ≠ some l → (t.line l).callList = (s.line l).callList)
    ∧ (∀ l, x.line = some l →
      (∀ e' ∈ (t.line l).callList, ∃ e ∈ (s.line l).callList,
          e' = if e.ship = x.ship then { e with messages := e.messages.erase i } else e)
        ∧ ∀ e ∈ (s.line l).callList, e.ship ≠ x.ship → e ∈ (t.line l).callList)
    ∧ ∀ l, (t.line l).cutInQueue = (s.line l).cutInQueue
      ∧ (t.line l).windowQueue = (s.line l).windowQueue ∧ (t.line l).freeQueue = (s.line l).freeQueue

/-- The bulletin in a slot has left the bulletin queues of every line (R83). -/
def leftQueues (s t : State) (i : Slot) : Prop :=
  ∀ l, (t.line l).cutInQueue = (s.line l).cutInQueue.erase i
    ∧ (t.line l).windowQueue = (s.line l).windowQueue.erase i
    ∧ (t.line l).freeQueue = (s.line l).freeQueue.erase i
    ∧ (t.line l).callList = (s.line l).callList

/-- The work of the record `r` in slot `i` has ended between two states with one final report: its pages are
at the tail of the free list (R137), its message or parts have left the lines, the report waits at the
tail of the report list, or is in the transmit queue with the record freed (R144, R145), and nothing else
changed. -/
def workEnded (s t : State) (i : Slot) (r : Record) (item : ReportItem) : Prop :=
  t.freePages = s.freePages ++ r.pageList ++ r.reserved
    ∧ (match r.body with
      | .telex x => leftEntry s t i x
      | .bulletin _ => leftQueues s t i)
    ∧ (∀ j, j ≠ i → t.record j = s.record j)
    ∧ (Config.reportLimit < s.queue.length →
      t.queue = s.queue ∧ t.reports = s.reports ++ [⟨i, item⟩]
        ∧ ∃ r', t.record i = some r' ∧ r'.state = .reporting ∧ r'.key = r.key ∧ r'.pageList = []
          ∧ r'.reserved = [] ∧ r'.loadTimer = false)
    ∧ (s.queue.length ≤ Config.reportLimit →
      t.queue = enqueue (reportFrame s r item) s.queue ∧ t.reports = [] ∧ t.record i = none)
    ∧ (∀ l, (t.line l).bare = (s.line l).bare)
    ∧ t = { s with freePages := t.freePages, records := t.records, lines := t.lines, queue := t.queue
                   reports := t.reports }

/-- The telex record `r` in slot `i` has been dropped between two states without a report: freed, its pages
at the tail of the free list, its message out of its entry, claims-lost one more (R149, R163, R164). -/
def telexDropped (s t : State) (i : Slot) (r : Record) (x : Telex) : Prop :=
  t.record i = none ∧ t.freePages = s.freePages ++ r.pageList ++ r.reserved
    ∧ (∀ j, j ≠ i → t.record j = s.record j)
    ∧ leftEntry s t i x
    ∧ (∀ l, (t.line l).bare = (s.line l).bare)
    ∧ t = { s with freePages := t.freePages, records := t.records, lines := t.lines
                   counters := { s.counters with claimsLost := bump s.counters.claimsLost } }

/-- A window's claim has ended between two states without a take: the window gone, the record of its slot
freed with its pages at the tail of the free list, and claims-lost one more (R158, R161). -/
def claimEnded (s t : State) (w : ClaimWindow) : Prop :=
  t.record w.slot = none ∧ t.freePages = s.freePages ++ s.pagesOf w.slot
    ∧ (∀ j, j ≠ w.slot → t.record j = s.record j)
    ∧ t.claims = s.claims.filter (fun v => v.key ≠ w.key)
    ∧ t = { s with freePages := t.freePages, records := t.records, claims := t.claims, queue := t.queue
                   counters := { s.counters with claimsLost := bump s.counters.claimsLost } }

/-- A failed attempt has been counted against the entry of a ship on a line, which had the call list `calls`
before (R29): at the third the entry is freed and each of its messages has its RETURNED; below that an empty
entry is freed, and any other waits 60 boundaries at the tail of the call list. -/
def attemptFailed (calls : List Entry) (u : State) (l : LineId) (ship : Nat) (reason : Reason) : Prop :=
  let others := calls.filter fun e => e.ship ≠ ship
  let found := calls.find? fun e => e.ship = ship
  (found = none → (u.line l).callList = calls)
    ∧ ∀ e, found = some e →
      (3 ≤ e.attempts + 1 → (u.line l).callList = others ∧ ∀ i ∈ e.messages,
        (⟨i, .returned reason⟩ : Report) ∈ u.reports
          ∧ ∀ r, u.record i = some r → r.state = .reporting ∧ r.pageList = [] ∧ r.reserved = [])
      ∧ (e.attempts + 1 < 3 → e.messages = [] → (u.line l).callList = others)
      ∧ (e.attempts + 1 < 3 → e.messages ≠ [] → (u.line l).callList
          = others ++ [{ e with attempts := e.attempts + 1, retryHold := 60, lastFailure := some reason }])

/-- A call list whose entry for a ship has lost one message, no entry freed. -/
def callsWithout (calls : List Entry) (ship : Nat) (i : Slot) : List Entry :=
  calls.map fun e => if e.ship = ship then { e with messages := e.messages.erase i } else e

/-- A window once the end of the message in a slot is known to it (R98). -/
def Window.afterEnd (w : Window) (i : Slot) : Window :=
  if w.state = .openDeferred ∧ w.deferredFor = some i then { w with state := .isOpen, deferredFor := none }
  else w

/-- The circuit `c` of a line has been lost between two states (R43, R48, R54, R29): the record gone; the
message on air READY again with all it had, or, where it is marked, finished as WITHDRAWN(cut); its end known
to the window; and a failed attempt counted with LOST. -/
def circuitLost (s u : State) (l : LineId) (c : Circuit) : Prop :=
  let calls := (s.line l).callList
  (u.line l).circuit = none
    ∧ (c.current = none →
      (u.line l).window = (s.line l).window ∧ attemptFailed calls u l c.ship .lost)
    ∧ ∀ i r, c.current = some i → s.record i = some r → r.state = .onAir →
      (u.line l).window = (s.line l).window.afterEnd i
        ∧ (r.withdrawMark = false → attemptFailed calls u l c.ship .lost
          ∧ ((∀ e ∈ calls, e.ship = c.ship → e.attempts + 1 < 3) → u.record i = some { r with state := .ready }))
        ∧ (r.withdrawMark = true → (⟨i, .withdrawn true⟩ : Report) ∈ u.reports
          ∧ (∃ r', u.record i = some r' ∧ r'.state = .reporting ∧ r'.pageList = [] ∧ r'.reserved = [])
          ∧ ∀ x, r.body = .telex x → x.line = some l → x.ship = c.ship → (calls.map (·.ship)).Nodup →
            attemptFailed (callsWithout calls c.ship i) u l c.ship .lost)

/-- A record-borne report of a record is made between two states: it waits in the report list, or its frame is
in the transmit queue (R143, R144). -/
def reported (s t : State) (i : Slot) (r : Record) (item : ReportItem) : Prop :=
  (⟨i, item⟩ : Report) ∈ t.reports ∨ (⟨reportFrame s r item, false⟩ : Queued) ∈ t.queue

/-- A part of a line may be sent: QUEUED, of a READY record (R72, R73). -/
def mayBeSent (s : State) (l : LineId) (i : Slot) : Prop :=
  (∃ r, s.record i = some r ∧ r.state = .ready) ∧ ∃ p, s.part? i l = some p ∧ p.state = .queued

/-- A part of a line is read by the pass: it may be sent, and its pass-mark is clear (R99). -/
def readByPass (s : State) (l : LineId) (i : Slot) : Prop :=
  (∃ r, s.record i = some r ∧ r.state = .ready)
    ∧ ∃ p, s.part? i l = some p ∧ p.state = .queued ∧ p.passMark = false

/-- A slot is the first of a list with a property. -/
def firstWith (p : Slot → Prop) (q : List Slot) (i : Slot) : Prop :=
  ∃ a b, q = a ++ i :: b ∧ p i ∧ ∀ j ∈ a, ¬ p j

/-- The line's window has closed between two states, nothing else of it changed but notice-step, given (R101):
the pass-mark of every part in the window queue is clear. -/
def windowClosed (s u : State) (l : LineId) (step : Nat) : Prop :=
  (u.line l).window = { (s.line l).window with state := .closed, unitsEnded := false, noticeStep := step }
    ∧ (u.line l).windowQueue = (s.line l).windowQueue
    ∧ ∀ i ∈ (s.line l).windowQueue, ∀ p, s.part? i l = some p →
      ∃ p', u.part? i l = some p' ∧ p' = { p with passMark := false }

/-- Whether a circuit has ready traffic (R40). -/
def hasTraffic (s : State) (l : LineId) (c : Circuit) : Prop :=
  c.current ≠ none
    ∨ ∃ e, (s.line l).entry? c.ship = some e ∧ ∃ i ∈ e.messages, ∃ r, s.record i = some r ∧ r.state = .ready

/-- What the line hands next, with the card at that hand-over, begins the sending of a part (R74). -/
def sendingBegun (s : State) (l : LineId) (i : Slot) (p : State × Cycle) : Prop :=
  ∀ r x, s.record i = some r → s.part? i l = some x →
    p.2 = s.formCycle r 1 ∧ p.1.part? i l = some { x with state := .onAir, formStep := 1 }

/-- What the line hands next is the next cycle of a sending (R74). -/
def sendingGoesOn (s : State) (l : LineId) (i : Slot) (p : State × Cycle) : Prop :=
  ∀ r x, s.record i = some r → s.part? i l = some x →
    p.2 = s.formCycle r (x.formStep + 1) ∧ p.1.part? i l = some { x with formStep := x.formStep + 1 }

/-- An open window's answer is begun (R99, R112): the first cycle of the part given, or the first NOTICE. -/
def unitBegun (s : State) (l : LineId) (p : State × Cycle) : Prop :=
  (∀ i, firstWith (readByPass s l) (s.line l).windowQueue i → sendingBegun s l i p
      ∧ (p.1.line l).window = (s.line l).window)
    ∧ ((∀ i ∈ (s.line l).windowQueue, ¬ readByPass s l i) → (s.line l).window.unitsEnded = false →
      p.2 = .notice
        ∧ (p.1.line l).window = { (s.line l).window with noticeStep := (s.line l).window.noticeStep + 1 })

/-- The circuit hands a BLOCK of its traffic (R36, R59): the block in hand, or the next characters of the
current message, or of the oldest READY message of its entry, which goes on air. -/
def blockHanded (s : State) (l : LineId) (c : Circuit) (p : State × Cycle) : Prop :=
  ∀ i r x, s.record i = some r → r.body = .telex x →
    (c.current = some i ∨ (c.current = none ∧ ∃ e, (s.line l).entry? c.ship = some e
      ∧ firstWith (fun j => ∃ r, s.record j = some r ∧ r.state = .ready) e.messages i)) →
    ∃ b k, (∀ old, c.block = some old → b = old ∧ k = c.k)
      ∧ (c.block = none → k = 0 ∧ b = ⟨r.ackCount + 1,
        s.readChars r (r.ackCount + 1) (min 4 (r.n - r.ackCount))⟩)
      ∧ p.2 = .block b.chars
      ∧ (p.1.line l).circuit = some { c with
          state := .linked, current := some i, block := some b, k := k, lingerCount := 0
          silenceCount := if c.state = .parked then 0 else c.silenceCount }
      ∧ p.1.record i = some { r with state := if r.state = .ready then .onAir else r.state }
      ∧ (p.1.line l).counters
        = { (s.line l).counters with blocksSent := bump (s.line l).counters.blocksSent }

/-- The cut notice waits for a circuit's next cycle: it is in hand, or the current message is marked (R46). -/
def cutWaits (s : State) (c : Circuit) : Prop :=
  c.cut = true ∨ ∃ i r, c.current = some i ∧ s.record i = some r ∧ r.withdrawMark = true

/-- The circuit hands the cut notice, the four characters XXXX: the first time the block in hand is discarded
and k becomes 0, later it is resent with its k (R46, R59). -/
def cutHanded (s : State) (l : LineId) (c : Circuit) (p : State × Cycle) : Prop :=
  p.2 = .block [88, 88, 88, 88]
    ∧ (p.1.line l).circuit = some { c with
        state := .linked, cut := true, lingerCount := 0
        block := if c.cut then c.block else none, k := if c.cut then c.k else 0
        silenceCount := if c.state = .parked then 0 else c.silenceCount }
    ∧ (p.1.line l).counters = { (s.line l).counters with blocksSent := bump (s.line l).counters.blocksSent }

/-- The circuit is given the cycle as circuit traffic while it has ready traffic (R36, R46, R59). -/
def trafficHanded (s : State) (l : LineId) (c : Circuit) (p : State × Cycle) : Prop :=
  (cutWaits s c → cutHanded s l c p)
    ∧ (¬ cutWaits s c → hasTraffic s l c → blockHanded s l c p)

/-- The circuit hands its first CLEAR (R40, R44). -/
def clearHanded (l : LineId) (c : Circuit) (p : State × Cycle) : Prop :=
  p.2 = .clear ∧ (p.1.line l).circuit
    = some { c with state := .clearing, clearCycles := 1, clearCause := .ordinary }

/-- A call list whose entry for a ship is gone where it is empty (R28). -/
def callsKept (calls : List Entry) (ship : Nat) : List Entry :=
  calls.filter fun e => !(decide (e.ship = ship) && e.messages.isEmpty)

/-- The work of a record has ended between two states: it is freed, or in REPORTING without pages (R137,
R145). -/
def workOver (t : State) (i : Slot) : Prop :=
  ∀ r, t.record i = some r → r.state = .reporting ∧ r.pageList = [] ∧ r.reserved = []

/-- The clear of a line's CLEARING circuit has completed between two states (R45, R29, R49): an empty entry is
freed, a recalled one is first, and any other is last; a failure cause counts in calls-failed and an attempt,
with RETURNED for each message and the entry freed at the third. -/
def clearCompleted (s t : State) (l : LineId) (c : Circuit) : Prop :=
  let x := s.line l
  let y := t.line l
  let others := x.callList.filter fun e => e.ship ≠ c.ship
  y.circuit = none
    ∧ (c.clearCause = .ordinary → y.counters = x.counters)
    ∧ (c.clearCause ≠ .ordinary →
      y.counters = { x.counters with callsFailed := bump x.counters.callsFailed })
    ∧ (x.entry? c.ship = none → y.callList = x.callList)
    ∧ ∀ e, x.entry? c.ship = some e →
      (c.clearCause = .ordinary →
          (e.messages = [] → y.callList = others)
            ∧ (e.messages ≠ [] → e.recalled = true →
              y.callList = { e with retryHold := 0, recalled := false } :: others)
            ∧ (e.messages ≠ [] → e.recalled = false → y.callList = others ++ [e]))
        ∧ ∀ reason, (c.clearCause, reason) = (.lost, .lost)
            ∨ (c.clearCause, reason) = (.wrongStation, .wrongStation) →
          let failed := { e with attempts := e.attempts + 1, lastFailure := some reason }
          (3 ≤ e.attempts + 1 → y.callList = others ∧ ∀ i ∈ e.messages, ∀ r, s.record i = some r →
              reported s t i r (.returned reason) ∧ workOver t i)
            ∧ (e.attempts + 1 < 3 → e.messages = [] → y.callList = others)
            ∧ (e.attempts + 1 < 3 → e.messages ≠ [] → e.recalled = true →
              y.callList = { failed with retryHold := 0, recalled := false } :: others)
            ∧ (e.attempts + 1 < 3 → e.messages ≠ [] → e.recalled = false →
              y.callList = others ++ [{ failed with retryHold := 60 }])

/-- What a stop or a silence leaves of a line's work between two states, the line entering a mode (R21, R81,
R100, R102, R104, R12): keying, filler run, notice run and turn end; the window stands; an operation ends
with no attempt, and an empty entry is freed; a LINKED circuit is PARKED, its message as it was; the message on
air of a REPHASING one is READY again, or finished as WITHDRAWN(cut) where it is marked (log 8); a CLEARING one
ends as a completed clear; the bulletin on air is QUEUED again, a free one first in its
queue, or removed where its record is marked. -/
def keyingStopped (w t : State) (l : LineId) (m : Mode) : Prop :=
  let x := w.line l
  let y := t.line l
  (y.mode = m ∧ y.keyupCount = 0 ∧ y.fillerRun = 0 ∧ y.window = { x.window with noticeStep := 0 }
      ∧ y.arbiter = ⟨x.arbiter.phasePointer, .noTurn, 0, false, false⟩)
    ∧ (x.circuit = none → y.circuit = none)
    ∧ (∀ c, x.circuit = some c →
      (c.state = .linked → y.circuit = some { c with state := .parked, silenceCount := 0 })
        ∧ (c.state = .parked → y.circuit = some c)
        ∧ (c.state ≠ .linked → c.state ≠ .parked → y.circuit = none)
        ∧ (c.state = .calling ∨ c.state = .aligning ∨ c.state = .identifying ∨ c.state = .rephasing →
          c.current = none → y.callList = callsKept x.callList c.ship)
        ∧ (c.state = .linked ∨ c.state = .parked → y.callList = x.callList)
        ∧ (c.state = .clearing → clearCompleted w t l c)
        ∧ ∀ i r z, c.current = some i → w.record i = some r → r.body = .telex z → r.state = .onAir →
          (c.state = .linked ∨ c.state = .parked → t.record i = some r)
            ∧ (c.state = .rephasing → r.withdrawMark = false →
              t.record i = some { r with state := .ready } ∧ y.callList = callsKept x.callList c.ship)
            ∧ (c.state = .rephasing → r.withdrawMark = true →
              reported w t i r (.withdrawn true) ∧ workOver t i
                ∧ (z.line = some l → z.ship = c.ship →
                  y.callList = callsKept (callsWithout x.callList c.ship i) c.ship)))
    ∧ ((∀ c, x.circuit = some c → c.state ≠ .clearing) → y.counters = x.counters
      ∧ ∀ i p, w.bulletinOnAir l = some i → w.isReady i = true → w.part? i l = some p →
        (w.isMarked i = false →
          t.part? i l = some { p with state := .queued, formStep := 0, passMark := false }
            ∧ y.windowQueue = x.windowQueue ∧ y.cutInQueue = x.cutInQueue
            ∧ (i ∈ x.freeQueue → y.freeQueue = i :: x.freeQueue.erase i)
            ∧ (i ∉ x.freeQueue → y.freeQueue = x.freeQueue))
        ∧ (w.isMarked i = true → t.part? i l = none))

/-- A safe state: its buffers within their sizes, its counters within their range, its text canonical, its
pages conserved, its configuration within its limits, and the laws of the whole card held. -/
structure State.Safe (s : State) : Prop where
  queue : s.queueBounded
  claims : s.claimsBounded
  counters : s.countersBounded
  text : s.textCanonical
  reporting : s.reportingEmpty
  pages : s.pagesConserved
  config : s.configInRange
  order : s.queueOrdered
  handed : s.reportsHanded
  owned : s.reportsOwned
  keys : s.keysDistinct
  ships : s.shipsOnce
  messages : s.messagesPlaced
  claiming : s.claimingTelex
  onAir : s.onePartOnAir
  lines : s.linesInRange
  silence : s.silenceHeld

end Sys2Proof.Machine
end

