-- ==== Sys2Proof/Certificates/Slice0/Obligations.lean ====
section
/-! DEFINITION. The statements put to the provers. Each docstring names the rules of spec/ it formalises; a
statement or a clause that rests on a choice of the model names its log entry. -/

open Sys2Proof Sys2Proof.Machine

/-! ## The queue of commands, and the start of the card -/

/-- A step takes the command at the front of the queue and runs it on the card with the rest of the queue. With
no command waiting the card idles: the model's choice (log 4). -/
def Obligations.StepRunsFrontCommand : Prop :=
  (∀ (c : Instr) (rest : List Instr) (s : State),
    step { s with pending := c :: rest } = exec c { s with pending := rest })
    ∧ ∀ s : State, s.pending = [] → step s = .next s

/-- The state after reset satisfies every law of the card stated below as kept by its steps. Its lines are
DISABLED and its configuration blank until a read ends: the model's choice (log 1, log 2). -/
def Obligations.ResetIsSafe : Prop := State.reset.Safe

/-- PIN_RESET sets every part of the card that chapters 01 to 11 give a pin reset value, reads the strap (63
becomes 62) and begins the read of the configuration; no line has a cycle record, so its first cycle carries tag
0 (R178, R185, R151, R177, R165, R88, R90, R1, R7, R50, R87, R94, R104). The commands that wait stay (log
32). -/
def Obligations.PinResetClearsCard : Prop :=
  ∀ (pins : Fin 64) (s : State), ∃ t, exec (.pinReset pins) s = .next t
    ∧ t.pending = s.pending ∧ t.strap = (if pins = 63 then 62 else pins) ∧ t.phase = .reading
    ∧ t.fault = false ∧ t.known = [] ∧ t.startInterval = false ∧ t.silenced = 0
    ∧ t.minute = 0 ∧ t.second = 0 ∧ t.timeValid = false
    ∧ (∀ (l : LineId) (i : Fin 8), t.marks[l][i] = false)
    ∧ (∀ i, t.record i = none) ∧ t.freePages = List.finRange 2048 ∧ t.reports = [] ∧ t.claims = []
    ∧ t.queue = [] ∧ t.counters = ⟨0, 0, 0, 0, 0⟩
    ∧ ∀ l, (t.line l).cycle = none ∧ (t.line l).keyupCount = 0 ∧ (t.line l).fillerRun = 0 ∧ (t.line l).held = none
      ∧ (t.line l).silenceAnswer = none ∧ (t.line l).outcome = none ∧ (t.line l).circuit = none
      ∧ (t.line l).callList = [] ∧ (t.line l).cutInQueue = [] ∧ (t.line l).windowQueue = []
      ∧ (t.line l).freeQueue = [] ∧ (t.line l).window = ⟨.closed, none, 0, false, 0, 0, false⟩
      ∧ (t.line l).arbiter = ⟨0, .noTurn, 0, false, false⟩
      ∧ (t.line l).counters = ⟨0, 0, 0, 0, 0, 0, 0, 0⟩

/-- The end of a successful read settles the configuration, starts the card and its start interval, gives each
line its mode (a line without a channel, or with the channel of a line of lower number, DISABLED; any other
REST), and queues the start ANNOUNCE; nothing else changes (R178, R180, R7, R181). -/
def Obligations.ReadEndSettlesConfiguration : Prop :=
  ∀ (result : ConfigRead) (c : CardConfig) (s : State),
    s.phase = .reading → s.fault = false → settledConfig result = some c → s.queue.length < 24 →
    ∃ t a, exec (.configurationReadEnd result) s = .next t
      ∧ t = { s with phase := .settled, config := c, startInterval := true, lines := t.lines
                     queue := enqueue ⟨63, .announce a⟩ s.queue }
      ∧ (∀ l : LineId,
        (t.line l = { s.line l with mode := .rest } ∧ a.channels[l].val = c.lines[l].channel % 1024
          ∧ c.lines[l].channel ≠ 0 ∧ ∀ m < l, c.lines[m].channel ≠ c.lines[l].channel)
        ∨ (t.line l = { s.line l with mode := .disabled } ∧ a.channels[l].val = 0
          ∧ (c.lines[l].channel = 0 ∨ ∃ m < l, c.lines[m].channel = c.lines[l].channel)))
      ∧ a.fault = false ∧ a.reply = false ∧ a.restarted = false ∧ a.timeValid = s.timeValid
      ∧ a.minute.val = s.minute.val ∧ a.silenced = s.silenced

/-- The end of a failed read sets FAULT, disables every line, begins no start interval, and queues an ANNOUNCE
with the fault flag, no time, four channels of 0 and no silenced band (R178, R179). -/
def Obligations.FailedReadSetsFault : Prop :=
  ∀ (result : ConfigRead) (s : State),
    s.phase = .reading → settledConfig result = none → s.queue.length < 24 →
    ∃ t, exec (.configurationReadEnd result) s = .next t
      ∧ t.queue = enqueue ⟨63, .announce
          { fault := true, timeValid := false, reply := false, restarted := false
            channels := Vector.replicate 4 0, minute := 0, silenced := 0 }⟩ s.queue
      ∧ (∀ l, t.line l = { s.line l with mode := .disabled })
      ∧ t = { s with phase := .settled, fault := true, startInterval := false, config := t.config
                     lines := t.lines, queue := t.queue }

/-- The items of an image after clamping, as the tables of R63 and R178 give them. -/
def Obligations.ImageItemsClamped : Prop :=
  ∀ (image : List Byte) (l : LineId) (j : Fin 16),
    let c := readImage image
    let x := c.lines[l]
    let e := c.classes[j]
    let base := 113 + 56 * l.val
    x.channel = (if imagePair image base > 999 then 999 else imagePair image base)
      ∧ x.band.val = (if imageByte image (base + 2) > 7 then 7 else imageByte image (base + 2))
      ∧ x.q0 = imageByte image (base + 3) ∧ x.grace = imageByte image (base + 4)
      ∧ x.linger = (if imageByte image (base + 5) > 60 then 60 else imageByte image (base + 5))
      ∧ x.parkLimit = (if imageByte image (base + 6) < 8 then 8
          else if imageByte image (base + 6) > 60 then 60 else imageByte image (base + 6))
      ∧ x.turn = (if imageByte image (base + 7) = 0 then 1
          else if imageByte image (base + 7) > 16 then 16 else imageByte image (base + 7))
      ∧ c.classCount = (if imageByte image 64 = 0 then 1
          else if imageByte image 64 > 16 then 16 else imageByte image 64)
      ∧ e.repeats = (if imageByte image (67 + 3 * j.val) > 8 then 8
          else if imageByte image (67 + 3 * j.val) = 0 ∧ e.kind = .cutIn then 1
          else imageByte image (67 + 3 * j.val))

/-- The expiry of the start interval ends it and changes nothing else; while it runs, a line in REST hands
UNKEYED at its boundary whatever waits on it (R7, R180). Without a held order, the band not silenced: a line in
REST with content after the per-boundary work enters KEYING with its first KEYUP, one without stays in REST
(R10, R106); the second KEYUP and then ACTIVE follow (R11); an ACTIVE line with nothing to send hands FILLER,
and rests after the 8th in a row (R12, R120). -/
def Obligations.StartIntervalHoldsRest : Prop :=
  (∀ s : State, exec .startIntervalExpiry s = .next { s with startInterval := false }
    ∧ ∀ l : LineId, s.phase = .settled → s.startInterval = true → (s.line l).mode = .rest →
      (s.line l).held = none → s.silencedLine l = false →
      ∃ t r, exec (.boundary l) s = .next t ∧ (t.line l).mode = .rest ∧ (t.line l).cycle = some r
        ∧ r.cycle = .unkeyed)
    ∧ ∀ (l : LineId) (s : State), s.phase = .settled → (s.line l).held = none → s.silencedLine l = false →
      let x := s.line l
      let w := s.worked l
      let ready := fun i : Slot => ∃ r, w.record i = some r ∧ r.state = .ready
      let content := (w.line l).circuit ≠ none ∨ (w.line l).window.state ≠ .closed
        ∨ (∃ i ∈ (w.line l).cutInQueue ++ (w.line l).freeQueue, ready i
            ∧ ∃ p, w.part? i l = some p ∧ p.state = .queued)
        ∨ ∃ e ∈ (w.line l).callList, e.retryHold = 0 ∧ ∃ i ∈ e.messages, ready i
      ∃ t r, exec (.boundary l) s = .next t ∧ (t.line l).cycle = some r
        ∧ (x.mode = .rest → s.startInterval = false → content →
          (t.line l).mode = .keying ∧ (t.line l).keyupCount = 1 ∧ (t.line l).fillerRun = 0
            ∧ r.cycle = .keyup)
        ∧ (x.mode = .rest → ¬ content → (t.line l).mode = .rest ∧ r.cycle = .unkeyed)
        ∧ (x.mode = .keying → x.keyupCount = 1 →
          (t.line l).mode = .keying ∧ (t.line l).keyupCount = 2 ∧ r.cycle = .keyup)
        ∧ (x.mode = .keying → x.keyupCount = 2 → x.fillerRun < 8 →
          (t.line l).mode = .active ∧ (t.line l).keyupCount = 0 ∧ r.cycle ≠ .keyup)
        ∧ (x.mode = .active → ¬ content → w.bulletinOnAir l = none → (w.line l).window.noticeStep = 0 →
          (x.fillerRun < 8 → (t.line l).mode = .active ∧ (t.line l).fillerRun = x.fillerRun + 1
              ∧ r.cycle = .filler)
            ∧ (x.fillerRun = 8 → (t.line l).mode = .rest ∧ (t.line l).fillerRun = 0
              ∧ r.cycle = .unkeyed))
        ∧ (x.mode = .active → r.cycle ≠ .filler → (t.line l).fillerRun = 0)

/-- No command changes the queue of commands (the model's own, log 32). Once the read has ended, no command but
PIN_RESET changes the strap, FAULT or the configuration, or takes a line out of DISABLED: the read is not made
again, and RESTART leaves the configuration as read and a DISABLED line DISABLED (R178, R179, R8, R22, R182). -/
def Obligations.OnlyPinResetStartsAgain : Prop :=
  ∀ (c : Instr) (s t : State), exec c s = .next t →
    t.pending = s.pending
      ∧ (s.phase = .settled → (∀ pins, c ≠ .pinReset pins) →
        t.phase = .settled ∧ t.strap = s.strap ∧ t.fault = s.fault ∧ t.config = s.config
          ∧ ∀ l, (s.line l).mode = .disabled → (t.line l).mode = .disabled)

/-! ## The line cycle -/

/-- A boundary hands the line a cycle record with the next tag (0 at the first), window-offset 0 where the kind
expects no answer, and no outcome kept; text, claims, clock, marks, configuration and the start unit are
untouched (R1, R2, R3, R5). The window-offset of an answered kind is 0 for CALL, the circuit's trial-offset for
ALIGN, and its echo-offset for the rest (R3). It runs the stages of R2 in order, and hands by the mode that
results (R3). The LINESTATE answers that waited are queued, the silence answer first, with the mode after the
mode step and the rest check; an ACTIVE line that rests after its 8th FILLER answers ACTIVE, the model's reading
(R13, R20; log 6, log 9). -/
def Obligations.BoundaryHandsRecord : Prop :=
  (∀ (l : LineId) (s : State), s.phase = .settled →
    ∃ t r, exec (.boundary l) s = .next t ∧ (t.line l).cycle = some r
      ∧ r.tag.val = (match (s.line l).cycle with
          | none => 0
          | some old => (old.tag.val + 1) % 8)
      ∧ (r.cycle.expectsAnswer = false → r.windowOffset = 0)
      ∧ (∀ ship, r.cycle = .call ship → r.windowOffset = 0)
      ∧ (r.cycle = .align → ∃ c, (t.line l).circuit = some c ∧ r.windowOffset = c.trialOffset)
      ∧ (r.cycle = .ident ∨ (∃ chars, r.cycle = .block chars) ∨ r.cycle = .idleblock ∨ r.cycle = .park
          ∨ r.cycle = .keep → ∃ c, (t.line l).circuit = some c ∧ r.windowOffset = c.echoOffset)
      ∧ (t.line l).outcome = none
      ∧ t = { s with records := t.records, freePages := t.freePages, reports := t.reports
                     queue := t.queue, counters := t.counters, lines := t.lines })
    ∧ ∀ (l : LineId) (s : State), s.phase = .settled →
      let step := (s.worked l).modeStep l
      let chosen := step.1.choice l
      let mode := if (step.1.line l).mode = .active then .active else (chosen.1.line l).mode
      ∃ t, exec (.boundary l) s = .next t
        ∧ t = ((chosen.1.handReports.answer l mode step.2).handOver l chosen.2)
        ∧ (mode = (t.line l).mode ∨ (mode = .active ∧ (t.line l).mode = .rest))
        ∧ (∀ m, (step.1.line l).mode = m →
          (m = .disabled ∨ m = .stopped ∨ m = .silent → chosen = (step.1, .unkeyed))
            ∧ (m = .pattern → chosen = (step.1, .pattern)) ∧ (m = .keying → chosen.2 = .keyup)
            ∧ (m = .rest → chosen.2 = .keyup ∨ chosen.2 = .unkeyed)
            ∧ (m = .active → chosen = step.1.chooseCycle l))
        ∧ (t.line l).held = none ∧ (t.line l).silenceAnswer = none
        ∧ (∀ d, (s.line l).silenceAnswer = some d → s.queue.length < 24 →
          (⟨⟨d, .lineState l mode .accepted⟩, false⟩ : Queued) ∈ t.queue)
        ∧ (∀ h, (s.line l).held = some h → s.queue.length < 23 →
          ∃ result, (result = .accepted ∨ (result = .busy ∧ h.order = .patternOn))
            ∧ (⟨⟨h.source, .lineState l mode result⟩, false⟩ : Queued) ∈ t.queue
            ∧ ∀ d, (s.line l).silenceAnswer = some d →
              [(⟨⟨d, .lineState l mode .accepted⟩, false⟩ : Queued),
                ⟨⟨h.source, .lineState l mode result⟩, false⟩].Sublist t.queue)

/-- A boundary of one line leaves every other line as it is, whole (R2). The premise rules out a message of this
line whose record names another line (R25, R133); every step keeps it (StepKeepsShips). -/
def Obligations.BoundaryWorksOnOneLine : Prop :=
  ∀ (l m : LineId) (s : State), m ≠ l → s.messagesPlaced →
    ∃ t, exec (.boundary l) s = .next t ∧ t.line m = s.line m

/-- At its boundary a line whose band is in the silenced set hands UNKEYED and is SILENT, STOPPED or DISABLED
(R13, R14, R16, R17). A keyed or resting line falls SILENT with the effects of R21 on its circuit, entries,
messages, bulletin, window and turn (R81, R100, R102, R104; a CLEARING circuit as R45); a SILENT line whose band
has left the set is in REST, and the rest check follows (R14, R10). What becomes of a rephasing circuit's
message and of its empty entry (log 8), and that an abandoned free part is restarted first (log 17), are the
model's readings. -/
def Obligations.SilencedLineFallsSilent : Prop :=
  (∀ (l : LineId) (s : State), s.phase = .settled → s.silencedLine l = true →
    ∃ t r, exec (.boundary l) s = .next t ∧ (t.line l).mode.heldSilent = true
      ∧ (t.line l).cycle = some r ∧ r.cycle = .unkeyed)
    ∧ ∀ (l : LineId) (s : State), s.phase = .settled → (s.line l).held = none →
      let mode := (s.line l).mode
      (s.silencedLine l = true → mode = .rest ∨ mode = .keying ∨ mode = .active ∨ mode = .pattern →
          ∃ t, exec (.boundary l) s = .next t ∧ keyingStopped (s.worked l) t l .silent)
        ∧ (s.silencedLine l = true → mode = .silent →
          ∃ t, exec (.boundary l) s = .next t ∧ (t.line l).mode = .silent)
        ∧ (s.silencedLine l = false → mode = .silent →
          ∃ t r, exec (.boundary l) s = .next t ∧ (t.line l).cycle = some r
            ∧ (s.startInterval = false → (s.worked l).hasContent l = true →
              (t.line l).mode = .keying ∧ (t.line l).keyupCount = 1 ∧ r.cycle = .keyup)
            ∧ (s.startInterval = true ∨ (s.worked l).hasContent l = false →
              (t.line l).mode = .rest ∧ r.cycle = .unkeyed))

/-- A DISABLED line hands UNKEYED at every boundary and stays DISABLED; without a circuit, an entry or an order
it gets none there (R8). -/
def Obligations.DisabledLineHandsUnkeyed : Prop :=
  ∀ (l : LineId) (s : State), s.phase = .settled → (s.line l).mode = .disabled →
    ∃ t r, exec (.boundary l) s = .next t ∧ (t.line l).mode = .disabled
      ∧ (t.line l).cycle = some r ∧ r.cycle = .unkeyed ∧ (t.line l).held = none
      ∧ ((s.line l).circuit = none → (t.line l).circuit = none)
      ∧ ((s.line l).callList = [] → (t.line l).callList = [])

/-- A held STOP LINE takes a line that is not DISABLED to STOPPED, is cleared, and the line hands UNKEYED with
no keying, filler or turn left (R15, R16, R12); its circuit, bulletin and window are left as R21 says, and a
STOPPED line stays so. A held START LINE takes a STOPPED line to SILENT where its band is silenced, and else to
REST with the rest check at once (R17); it changes nothing in any other mode. Each is answered ACCEPTED (R16,
R17, R20). The model's readings are those of SilencedLineFallsSilent (log 8, log 17). The premise that one part
at most is on air on a line is kept by every step (R71; StepKeepsShips). -/
def Obligations.StopLineStopsAtBoundary : Prop :=
  (∀ (l : LineId) (source : Station) (s : State), s.phase = .settled → (s.line l).mode ≠ .disabled →
    (s.line l).mode ≠ .stopped → (s.line l).held = some ⟨.stop, source⟩ →
    ∃ t r, exec (.boundary l) s = .next t ∧ (t.line l).mode = .stopped ∧ (t.line l).held = none
      ∧ (t.line l).cycle = some r ∧ r.cycle = .unkeyed ∧ (t.line l).keyupCount = 0
      ∧ (t.line l).fillerRun = 0 ∧ (t.line l).arbiter.turn = .noTurn)
    ∧ (∀ (l : LineId) (source : Station) (s : State), s.phase = .settled →
      (s.line l).held = some ⟨.stop, source⟩ → (s.line l).mode ≠ .disabled → s.onePartOnAir →
      ∃ t r, exec (.boundary l) s = .next t ∧ (t.line l).mode = .stopped ∧ (t.line l).cycle = some r
        ∧ r.cycle = .unkeyed ∧ (t.line l).held = none
        ∧ ((s.line l).mode ≠ .stopped → keyingStopped (s.worked l) t l .stopped)
        ∧ (s.queue.length < 23 →
          (⟨⟨source, .lineState l .stopped .accepted⟩, false⟩ : Queued) ∈ t.queue))
    ∧ ∀ (l : LineId) (source : Station) (s : State), s.phase = .settled →
      (s.line l).held = some ⟨.start, source⟩ →
      ∃ t r, exec (.boundary l) s = .next t ∧ (t.line l).cycle = some r ∧ (t.line l).held = none
        ∧ ((s.line l).mode = .stopped →
          (s.silencedLine l = true → (t.line l).mode = .silent ∧ r.cycle = .unkeyed)
            ∧ (s.silencedLine l = false → s.startInterval = false → (s.worked l).hasContent l = true →
              (t.line l).mode = .keying ∧ (t.line l).keyupCount = 1 ∧ r.cycle = .keyup)
            ∧ (s.silencedLine l = false →
              s.startInterval = true ∨ (s.worked l).hasContent l = false →
              (t.line l).mode = .rest ∧ r.cycle = .unkeyed)
            ∧ (s.queue.length < 23 →
              (⟨⟨source, .lineState l (t.line l).mode .accepted⟩, false⟩ : Queued) ∈ t.queue))
        ∧ ((s.line l).mode ≠ .stopped →
          ∃ u, exec (.boundary l) (s.modLine l fun x => { x with held := none }) = .next u
            ∧ t.lines = u.lines ∧ t.records = u.records)

/-- A held PATTERN ON on a REST line with no circuit, no open window and no bulletin on air, its band not
silenced, takes it to PATTERN, and the line hands PATTERN at once (R18). So it does with a PENDING window, from
ACTIVE, and from SILENT where the silence check has taken the line to REST; the answer is ACCEPTED. In every
other case nothing but the queue changes for it and the answer is BUSY. A held PATTERN OFF takes a PATTERN line
to REST with the rest check at once, and changes nothing in any other mode; its answer is ACCEPTED (R19, R20).
That PATTERN ON acts in the start interval too is the model's reading (log 23). -/
def Obligations.PatternOnKeysRestingLine : Prop :=
  (∀ (l : LineId) (source : Station) (s : State), s.phase = .settled → (s.line l).mode = .rest →
    (s.line l).held = some ⟨.patternOn, source⟩ → s.silencedLine l = false →
    (s.line l).circuit = none → (s.line l).window.state = .closed → s.bulletinOnAir l = none →
    (∀ r, (s.line l).cycle = some r → r.cycle = .unkeyed) →
    ∃ t r, exec (.boundary l) s = .next t ∧ (t.line l).mode = .pattern ∧ (t.line l).fillerRun = 0
      ∧ (t.line l).held = none ∧ (t.line l).cycle = some r ∧ r.cycle = .pattern)
    ∧ (∀ (l : LineId) (source : Station) (s : State), s.phase = .settled →
      (s.line l).held = some ⟨.patternOn, source⟩ →
      let w := s.worked l
      let mode := (s.line l).mode
      let allowed := s.silencedLine l = false ∧ (mode = .rest ∨ mode = .active ∨ mode = .silent)
        ∧ (w.line l).circuit = none ∧ w.bulletinOnAir l = none
        ∧ ((w.line l).window.state = .closed ∨ (w.line l).window.state = .pending)
      ∃ t r, exec (.boundary l) s = .next t ∧ (t.line l).cycle = some r ∧ (t.line l).held = none
        ∧ (allowed → (t.line l).mode = .pattern ∧ r.cycle = .pattern ∧ (t.line l).fillerRun = 0
          ∧ (t.line l).window = (w.line l).window
          ∧ (s.queue.length < 23 →
            (⟨⟨source, .lineState l .pattern .accepted⟩, false⟩ : Queued) ∈ t.queue))
        ∧ (¬ allowed →
          (∃ u, exec (.boundary l) (s.modLine l fun x => { x with held := none }) = .next u
              ∧ t.lines = u.lines ∧ t.records = u.records)
            ∧ (s.queue.length < 23 → ∃ m, (m = (t.line l).mode ∨ (m = .active ∧ (t.line l).mode = .rest))
              ∧ (⟨⟨source, .lineState l m .busy⟩, false⟩ : Queued) ∈ t.queue)))
    ∧ ∀ (l : LineId) (source : Station) (s : State), s.phase = .settled →
      (s.line l).held = some ⟨.patternOff, source⟩ →
      ∃ t r, exec (.boundary l) s = .next t ∧ (t.line l).cycle = some r ∧ (t.line l).held = none
        ∧ ((s.line l).mode = .pattern → s.silencedLine l = false →
          (s.startInterval = false → (s.worked l).hasContent l = true →
              (t.line l).mode = .keying ∧ (t.line l).keyupCount = 1 ∧ r.cycle = .keyup)
            ∧ (s.startInterval = true ∨ (s.worked l).hasContent l = false →
              (t.line l).mode = .rest ∧ r.cycle = .unkeyed)
            ∧ (s.queue.length < 23 →
              (⟨⟨source, .lineState l (t.line l).mode .accepted⟩, false⟩ : Queued) ∈ t.queue))
        ∧ ((s.line l).mode ≠ .pattern →
          ∃ u, exec (.boundary l) (s.modLine l fun x => { x with held := none }) = .next u
            ∧ t.lines = u.lines ∧ t.records = u.records)

/-- An outcome record is kept where its tag is the current one, the cycle expects an answer and no outcome is
kept yet; else it is discarded; nothing but the kept outcome changes (R5, R188). The kind is bits 5–3 of the
first byte: GOOD, REPEAT, GARBLED, NONE, CALL-ANSWER, EDGE-EARLY, EDGE-IN and IDENT in this order from 0, and
the other bytes are IDENT's digits alone (R188, chapter 12). -/
def Obligations.OutcomeRecordKeptOnce : Prop :=
  (∀ (l : LineId) (head d1 d2 d3 d4 d5 : Byte) (s : State),
      ∃ t, exec (.outcomeRecord l head d1 d2 d3 d4 d5) s = .next t
        ∧ t = { s with lines := t.lines } ∧ (∀ m, m ≠ l → t.line m = s.line m)
        ∧ ((∃ r, (s.line l).cycle = some r ∧ r.tag.val = head.toNat % 8 ∧ r.cycle.expectsAnswer = true
              ∧ (s.line l).outcome = none) →
            t.line l = { s.line l with outcome := some (readOutcome head [d1, d2, d3, d4, d5]) })
        ∧ ((∀ r, (s.line l).cycle = some r →
              r.tag.val ≠ head.toNat % 8 ∨ r.cycle.expectsAnswer = false ∨ (s.line l).outcome ≠ none) →
            t.line l = s.line l))
    ∧ ∀ (head : Byte) (digits : List Byte),
      let code := head.toNat / 8 % 8
      (code = 0 → readOutcome head digits = .good) ∧ (code = 1 → readOutcome head digits = .repeated)
        ∧ (code = 2 → readOutcome head digits = .garbled)
        ∧ (code = 3 → readOutcome head digits = .noAnswer)
        ∧ (code = 4 → readOutcome head digits = .callAnswer)
        ∧ (code = 5 → readOutcome head digits = .edgeEarly)
        ∧ (code = 6 → readOutcome head digits = .edgeIn)
        ∧ (code = 7 → readOutcome head digits = .ident digits)

/-! ## Circuits -/

/-- A call answered: the circuit enters ALIGNING with trial-offset 0, and the line hands its first ALIGN at
window-offset 0 at the same boundary (R31, R33, R107). At the settling stage of a boundary, for the ended cycle
of an operation: a CALL unanswered, the 10th failing the call with an attempt (R31, R29); an ALIGN (R33); an
IDENT, whose digits are the ship's five (R34, R35); and a CLEAR, whose second ends the circuit and places its
entry (R45, R49). The check of an emptied entry (R28). A boundary of a line without a circuit takes one from
every retry-hold, and a hold set by its settling stands at 60 (R27). -/
def Obligations.CallAnswerBeginsSearch : Prop :=
  (∀ (l : LineId) (s : State) (c : Circuit) (r : CycleRecord) (ship : Nat), s.phase = .settled →
    (s.line l).mode = .active → s.silencedLine l = false → (s.line l).held = none →
    (s.line l).circuit = some c → c.state = .calling → (s.line l).cycle = some r →
    r.cycle = .call ship → (s.line l).outcome = some .callAnswer →
    (∀ e, (s.line l).entry? c.ship = some e → e.messages ≠ []) →
    ∃ t r', exec (.boundary l) s = .next t ∧ (t.line l).mode = .active
      ∧ (t.line l).circuit = some { c with state := .aligning, trialOffset := 0 }
      ∧ (t.line l).cycle = some r' ∧ r'.cycle = .align ∧ r'.windowOffset = 0)
    ∧ (∀ (l : LineId) (s : State) (c : Circuit) (ended : Cycle),
      (s.line l).circuit = some c → (s.line l).ended = some ended →
      let x := s.line l
      let u := s.settled l
      let y := u.line l
      let others := x.callList.filter fun e => e.ship ≠ c.ship
      (∀ ship, c.state = .calling → ended = .call ship → x.outcome ≠ some .callAnswer →
          (c.callCycles < 10 → y.circuit = some c ∧ y.callList = x.callList ∧ y.counters = x.counters)
            ∧ (10 ≤ c.callCycles → y.circuit = none ∧ attemptFailed x.callList u l c.ship .noAnswer
              ∧ y.counters = { x.counters with callsFailed := bump x.counters.callsFailed }))
        ∧ (c.state = .aligning → ended = .align → y.callList = x.callList
          ∧ (x.outcome = some .edgeIn → y.circuit
            = some { c with state := .identifying, echoOffset := c.trialOffset, identTries := 0 })
          ∧ (x.outcome ≠ some .edgeIn → c.trialOffset < 44 →
            y.circuit = some { c with trialOffset := c.trialOffset + 4 })
          ∧ (x.outcome ≠ some .edgeIn → 44 ≤ c.trialOffset →
            y.circuit = some { c with state := .clearing, clearCycles := 0, clearCause := .lost }))
        ∧ (c.state = .identifying → ended = .ident → y.callList = x.callList
          ∧ (∀ digits : List Byte, x.outcome = some (.ident digits) →
            let same := digits.map BitVec.toNat
              = [c.ship / 10000 % 10, c.ship / 1000 % 10, c.ship / 100 % 10, c.ship / 10 % 10, c.ship % 10]
            (same → y.circuit = some { c with
                  state := .linked, q := (s.lineConfig l).q0, failRun := 0, rephaseCount := 0
                  lingerCount := 0, k := 0, block := none, cut := false, current := none }
                ∧ y.counters = { x.counters with circuitsLinked := bump x.counters.circuitsLinked })
              ∧ (¬ same → y.circuit
                = some { c with state := .clearing, clearCycles := 0, clearCause := .wrongStation }))
          ∧ ((∀ digits, x.outcome ≠ some (.ident digits)) →
            (c.identTries < 2 → y.circuit = some c)
              ∧ (2 ≤ c.identTries → y.circuit
                = some { c with state := .clearing, clearCycles := 0, clearCause := .lost })))
        ∧ (c.state = .clearing → ended = .clear →
          (c.clearCycles < 2 → y.circuit = some c ∧ y.callList = x.callList)
            ∧ (2 ≤ c.clearCycles → y.circuit = none
              ∧ (c.clearCause = .ordinary → y.counters = x.counters
                ∧ ∀ e, x.entry? c.ship = some e →
                  (e.messages = [] → y.callList = others)
                    ∧ (e.messages ≠ [] → e.recalled = true →
                      y.callList = { e with retryHold := 0, recalled := false } :: others)
                    ∧ (e.messages ≠ [] → e.recalled = false → y.callList = others ++ [e]))
              ∧ ∀ reason, (c.clearCause, reason) = (.lost, .lost)
                  ∨ (c.clearCause, reason) = (.wrongStation, .wrongStation) →
                y.counters = { x.counters with callsFailed := bump x.counters.callsFailed }
                  ∧ ((∀ e, x.entry? c.ship = some e →
                      e.recalled = false ∨ 3 ≤ e.attempts + 1 ∨ e.messages = []) →
                    attemptFailed x.callList u l c.ship reason)
                  ∧ ∀ e, x.entry? c.ship = some e → e.recalled = true → e.attempts + 1 < 3 →
                    e.messages ≠ [] → y.callList = { e with
                      attempts := e.attempts + 1, retryHold := 0, recalled := false
                      lastFailure := some reason } :: others)))
    ∧ (∀ (l : LineId) (s : State) (c : Circuit) (e : Entry), (s.line l).circuit = some c →
      (s.line l).entry? c.ship = some e →
      let t := s.emptiedCheck l
      (e.messages = [] →
        (c.state = .calling → (t.line l).circuit = none
            ∧ (t.line l).callList = (s.line l).callList.filter fun e => e.ship ≠ c.ship)
          ∧ (c.state = .aligning ∨ c.state = .identifying → (t.line l).callList = (s.line l).callList
            ∧ (t.line l).circuit
              = some { c with state := .clearing, clearCycles := 0, clearCause := .ordinary })
          ∧ (c.state = .linked ∨ c.state = .parked ∨ c.state = .rephasing ∨ c.state = .clearing → t = s))
        ∧ (e.messages ≠ [] → t = s))
    ∧ (∀ (l : LineId) (s : State), s.phase = .settled → s.shipsOnce → (s.line l).circuit = none →
      ∃ t, exec (.boundary l) s = .next t
        ∧ (t.line l).callList.map (fun e => { e with recalled := false })
          = (s.line l).callList.map fun e => { e with retryHold := e.retryHold - 1, recalled := false })
    ∧ ∀ (l : LineId) (s : State) (c : Circuit) (r : CycleRecord) (ship : Nat) (e : Entry),
      s.phase = .settled → (s.line l).circuit = some c → c.state = .calling → 10 ≤ c.callCycles →
      (s.line l).cycle = some r → r.cycle = .call ship → (s.line l).outcome ≠ some .callAnswer →
      (s.line l).entry? c.ship = some e → e.attempts + 1 < 3 → e.messages ≠ [] → e.retryHold < 60 →
      ∃ t, exec (.boundary l) s = .next t
        ∧ ∃ e' ∈ (t.line l).callList, e'.ship = c.ship ∧ e'.retryHold = 60 ∧ e'.attempts = e.attempts + 1

/-- At the boundary that settles a BLOCK of a LINKED circuit GOOD, a message's or the cut notice, the circuit's
q becomes q − floor(q/16) + 4k, held at 255; the circuit, where it is still there after the boundary, shows it
(R122). At the settling stage of a boundary: the message's progress, and its delivery with clear-after (R37,
R39); the end of a cut message (R46); a BLOCK or IDLEBLOCK answered, and one not acknowledged, whose fourth in a
row begins a rephase or loses the circuit (R38, R41, R43); and a rephase, cycle by cycle, to its link or its
loss (R42, R43, R48). That trial-offset is set when the second REPHASE is settled is the model's reading (log
28). -/
def Obligations.QualityUpdatedAtGoodBlock : Prop :=
  (∀ (l : LineId) (s : State) (c : Circuit) (r : CycleRecord) (chars : List Byte), s.phase = .settled →
    (s.line l).circuit = some c → c.state = .linked → (s.line l).cycle = some r →
    r.cycle = .block chars → (s.line l).outcome = some .good →
    (∀ i, c.current = some i → (s.record i).isSome) →
    ∃ t, exec (.boundary l) s = .next t ∧ ∀ c', (t.line l).circuit = some c' →
      c'.ship = c.ship
        ∧ c'.q = if 255 < c.q - c.q / 16 + 4 * c.k then 255 else c.q - c.q / 16 + 4 * c.k)
    ∧ ∀ (l : LineId) (s : State) (c : Circuit) (ended : Cycle),
      (s.line l).circuit = some c → (s.line l).ended = some ended →
      let x := s.line l
      let u := s.settled l
      let y := u.line l
      let acknowledged : Circuit := { c with
        q := if 255 < c.q - c.q / 16 + 4 * c.k then 255 else c.q - c.q / 16 + 4 * c.k
        failRun := 0, rephaseCount := 0, block := none }
      let failed := fun (d : Circuit) (n : LineCounters) =>
        (d.failRun < 4 → y.circuit = some d ∧ y.counters = n ∧ y.callList = x.callList)
          ∧ (4 ≤ d.failRun → d.rephaseCount < 3 →
            y.circuit = some { d with state := .rephasing, rephaseCycles := 0 } ∧ y.counters = n)
          ∧ (4 ≤ d.failRun → 3 ≤ d.rephaseCount →
            circuitLost s u l c ∧ y.counters = { n with circuitsLost := bump n.circuitsLost })
      (c.state = .linked → (∃ chars, ended = .block chars) →
          (x.outcome = some .good → ∀ (i : Slot) (r : Record) (z : Telex), c.current = some i →
            s.record i = some r → r.body = .telex z → z.line = some l → z.ship = c.ship →
            let ack := z.ackCount + (c.block.map fun b => b.chars.length).getD 0
            let ended' := (u.record i).map (fun r' => (r'.state, r'.pageList, r'.reserved))
                = some (.reporting, [], [])
              ∧ u.freePages = s.freePages ++ r.pageList ++ r.reserved
              ∧ y.window = x.window.afterEnd i ∧ y.counters = x.counters
            (c.cut = false → ack ≠ r.n → y.circuit = some acknowledged ∧ y.callList = x.callList
                ∧ u.record i = some { r with body := .telex { z with ackCount := ack } })
              ∧ (c.cut = false → ack = r.n → (⟨i, .delivered⟩ : Report) ∈ u.reports ∧ ended'
                ∧ y.callList = (callsWithout x.callList c.ship i).map (fun e =>
                  if e.ship = c.ship then { e with attempts := 0 } else e)
                ∧ (z.clearAfter = true → (∀ e, y.entry? c.ship = some e → e.messages = []) →
                  y.circuit = some { acknowledged with
                    current := none, state := .clearing, clearCycles := 0, clearCause := .ordinary })
                ∧ (z.clearAfter = false ∨ (∃ e, y.entry? c.ship = some e ∧ e.messages ≠ []) →
                  y.circuit = some { acknowledged with current := none }))
              ∧ (c.cut = true → (⟨i, .withdrawn true⟩ : Report) ∈ u.reports ∧ ended'
                ∧ y.callList = callsWithout x.callList c.ship i
                ∧ y.circuit = some { acknowledged with current := none, cut := false }))
          ∧ (x.outcome ≠ some .good → failed { c with failRun := c.failRun + 1, k := min 7 (c.k + 1) }
            { x.counters with repeats := bump x.counters.repeats }))
        ∧ (c.state = .linked → ended = .idleblock →
          (x.outcome = some .good → y.circuit = some { c with failRun := 0, rephaseCount := 0 })
            ∧ (x.outcome ≠ some .good → failed { c with failRun := c.failRun + 1 } x.counters))
        ∧ (c.state = .rephasing → ended = .rephase →
          (c.rephaseCycles < 2 → y.circuit = some c)
            ∧ (2 ≤ c.rephaseCycles → y.circuit = some { c with trialOffset := c.echoOffset - 8 }))
        ∧ (c.state = .rephasing → ended = .align →
          (x.outcome = some .edgeIn → y.circuit = some { c with
              state := .linked, echoOffset := c.trialOffset, rephaseCount := c.rephaseCount + 1
              failRun := 0 })
            ∧ (x.outcome ≠ some .edgeIn → c.trialOffset < 44 →
              y.circuit = some { c with trialOffset := c.trialOffset + 4 })
            ∧ (x.outcome ≠ some .edgeIn → 44 ≤ c.trialOffset → circuitLost s u l c
              ∧ y.counters = { x.counters with circuitsLost := bump x.counters.circuitsLost }))

/-- The fit estimate is the sum r + ceil(r × q / 64) while that is at most 4095, and 4095, saturated, above it
(R125). The test is made where a pending window opens over a message on air, and defers it where the estimate is
not saturated and at most GRACE (R96, R97, R126); the deferral step ends a deferral at GRACE (R98); what an open
window answers when asked (R99); and the end of a notice run or of a unit, which closes the window where the
pass has no part left (R100, R101). That the line's mode at the per-boundary work is the ended cycle's is the
model's reading (log 19). -/
def Obligations.FitEstimateSaturates : Prop :=
  (∀ r q : Nat, r ≤ 2048 → q ≤ 255 →
    (r + (r * q + 63) / 64 ≤ 4095 →
        fitEstimate r q = r + (r * q + 63) / 64 ∧ fitSaturated r q = false)
      ∧ (4095 < r + (r * q + 63) / 64 → fitEstimate r q = 4095 ∧ fitSaturated r q = true)
      ∧ r * q ≤ 522240)
    ∧ (∀ (l : LineId) (s : State),
      let x := s.line l
      let t := s.openPending l
      let opens := x.window.state = .pending
        ∧ (x.mode = .active ∨ (x.mode = .keying ∧ x.keyupCount = 2))
      let tested := fun (c : Circuit) (i : Slot) (r : Record) => x.circuit = some c ∧ c.current = some i
        ∧ s.record i = some r ∧ r.state = .onAir
      (¬ opens → t = s)
        ∧ t = { s with lines := t.lines } ∧ (∀ m, m ≠ l → t.line m = s.line m)
        ∧ t.line l = { x with window := (t.line l).window }
        ∧ (opens → (∀ c i r, ¬ tested c i r) → (t.line l).window = { x.window with
            state := .isOpen, deferredCycles := 0, unitsEnded := false, noticeStep := 0 })
        ∧ ∀ c i r, opens → tested c i r →
          let blocks := (r.n - r.ackCount + 3) / 4
          let est := fitEstimate blocks c.q
          let defers := fitSaturated blocks c.q = false ∧ est ≤ (s.lineConfig l).grace
          (defers → (t.line l).window = ⟨.openDeferred, some i, 0, false, 0, est, false⟩)
            ∧ (¬ defers → (t.line l).window
              = ⟨.isOpen, none, 0, false, 0, est, fitSaturated blocks c.q⟩))
    ∧ (∀ (l : LineId) (s : State),
      let w := (s.line l).window
      let t := s.deferralStep l
      t = { s with lines := t.lines } ∧ (∀ m, m ≠ l → t.line m = s.line m)
        ∧ t.line l = { s.line l with window := (t.line l).window }
        ∧ (w.state ≠ .openDeferred → (t.line l).window = w)
        ∧ (w.state = .openDeferred → w.deferredCycles + 1 < (s.lineConfig l).grace →
          (t.line l).window = { w with deferredCycles := w.deferredCycles + 1 })
        ∧ (w.state = .openDeferred → (s.lineConfig l).grace ≤ w.deferredCycles + 1 → (t.line l).window
          = { w with deferredCycles := w.deferredCycles + 1, state := .isOpen, deferredFor := none }))
    ∧ (∀ (l : LineId) (s : State),
      (∀ i, s.askWindow l = .part i ↔ firstWith (readByPass s l) (s.line l).windowQueue i)
        ∧ ((∀ i ∈ (s.line l).windowQueue, ¬ readByPass s l i) →
          s.askWindow l = if (s.line l).window.unitsEnded then .nothing else .notice))
    ∧ ∀ (l : LineId) (s : State),
      let w := (s.line l).window
      let left := ∃ i ∈ (s.line l).windowQueue, readByPass s l i
      ((s.line l).ended = some .notice →
        (w.noticeStep < 4 → ((s.settled l).line l).window = w)
          ∧ (4 ≤ w.noticeStep → w.state = .isOpen →
            (left → ((s.settled l).line l).window = { w with noticeStep := 0, unitsEnded := true })
              ∧ (¬ left → windowClosed s (s.settled l) l 0)))
        ∧ (w.state = .isOpen →
          (left → ((s.unitEnds l).line l).window = { w with unitsEnded := true })
            ∧ (¬ left → windowClosed s (s.unitEnds l) l w.noticeStep)
            ∧ ((s.line l).arbiter.turn = .bulletin → ((s.unitEnds l).line l).arbiter
              = ⟨(s.line l).arbiter.phasePointer, .noTurn, 0, false, (s.line l).arbiter.keepOffered⟩))

/-- The line chosen for a taken message: the line of the ship's circuit, else of its entry, else the line in use
of the band with the least backlog, the lowest number among equals, else such a STOPPED one; none where every
line of the band is DISABLED (R128, R129). The backlog is the sum of the blocks still to be acknowledged of
every message on the line's call list (R127, R124). -/
def Obligations.LineChosenByBacklog : Prop :=
  (∀ (s : State) (ship : Nat) (band : Band),
    let least := fun (p : LineId → Prop) (l : LineId) =>
      p l ∧ ∀ m, p m → s.backlog l < s.backlog m ∨ (s.backlog l = s.backlog m ∧ l ≤ m)
    let works := fun m : LineId => ∃ c, (s.line m).circuit = some c ∧ c.ship = ship
    let holds := fun m : LineId => ∃ e ∈ (s.line m).callList, e.ship = ship
    let inUse := fun m : LineId => (s.lineConfig m).band = band ∧ (s.line m).mode ≠ .disabled
      ∧ (s.line m).mode ≠ .stopped
    let stopped := fun m : LineId => (s.lineConfig m).band = band ∧ (s.line m).mode = .stopped
    (∀ l, s.chooseLine ship band = some l →
      works l ∨ ((∀ m, ¬ works m) ∧ holds l)
        ∨ ((∀ m, ¬ works m ∧ ¬ holds m) ∧ least inUse l)
        ∨ ((∀ m, ¬ works m ∧ ¬ holds m ∧ ¬ inUse m) ∧ least stopped l))
      ∧ (s.chooseLine ship band = none →
        ∀ m, ¬ works m ∧ ¬ holds m ∧ ((s.lineConfig m).band = band → (s.line m).mode = .disabled)))
    ∧ ∀ (s : State) (l : LineId),
      s.backlog l = (((s.line l).callList.flatMap (·.messages)).map fun i =>
        match s.record i with
        | none => 0
        | some r => match r.body with
          | .telex x => (r.n - x.ackCount + 3) / 4
          | .bulletin _ => (r.n + 3) / 4).sum

/-! ## The clock and the windows -/

/-- Below 59 the second timer's expiry counts one second. From 59 the minute advances in the order of R89: the
minute becomes the next (1439 becomes 0), a minute 0 clears every mark, and while time-valid every window time
of the new minute with a clear mark falls due. Its mark is set, and a line with one takes one opening (R88, R89,
R93, R95). -/
def Obligations.SecondTimerCounts : Prop :=
  ∀ s : State, s.phase = .settled →
    let new := (s.minute.val + 1) % 1440
    let kept := fun (l : LineId) (i : Fin 8) => if new = 0 then false else s.marks[l][i]
    let due := fun (l : LineId) (i : Fin 8) =>
      s.timeValid = true ∧ (s.lineConfig l).windowTimes[i] = new ∧ kept l i = false
    (s.second.val < 59 → ∃ t, exec .secondTimerExpiry s = .next t
        ∧ t.second.val = s.second.val + 1 ∧ t = { s with second := t.second })
      ∧ (s.second = 59 → ∃ t, exec .secondTimerExpiry s = .next t ∧ t.second = 0 ∧ t.minute.val = new
        ∧ (∀ l i, (due l i → t.marks[l][i] = true) ∧ (¬ due l i → t.marks[l][i] = kept l i))
        ∧ (∀ l, ((∃ i, due l i) → t.line l = (s.line l).opened)
          ∧ ((∀ i, ¬ due l i) → t.line l = s.line l))
        ∧ t = { s with second := t.second, minute := t.minute, marks := t.marks, lines := t.lines })

/-- A TIME taken while time-valid is false sets the clock and makes no window time fall due; one whose minute or
second is out of range is ignored (R91). -/
def Obligations.FirstTimeSetsClock : Prop :=
  ∀ (h : Header) (minute : Fin 2048) (second : Fin 64) (s : State),
    s.reception .time h h.source true = .taken →
    ((1440 ≤ minute.val ∨ 60 ≤ second.val) → exec (.time h minute second) s = .next s)
      ∧ (minute.val < 1440 → second.val < 60 → s.timeValid = false →
        ∃ t, exec (.time h minute second) s = .next t ∧ t.minute.val = minute.val
          ∧ t.second.val = second.val ∧ t.timeValid = true
          ∧ t = { s with minute := t.minute, second := t.second, timeValid := t.timeValid })

/-- A TIME taken with time-valid true, in the three cases of R92: the times that fall due, the marks, and at
most one opening for each line. -/
def Obligations.TimeSetDoesDueWork : Prop :=
  ∀ (h : Header) (minute : Fin 2048) (second : Fin 64) (s : State),
    s.reception .time h h.source true = .taken → minute.val < 1440 → second.val < 60 →
    s.timeValid = true →
    let current := s.minute.val
    let new := minute.val
    let at' := fun (l : LineId) (i : Fin 8) => (s.lineConfig l).windowTimes[i]
    let across := new < current ∧ 10 < current - new
    let due := fun (l : LineId) (i : Fin 8) =>
      (current ≤ new ∧ current < at' l i ∧ at' l i ≤ new ∧ s.marks[l][i] = false)
        ∨ (across ∧ ((current < at' l i ∧ at' l i ≤ 1439 ∧ s.marks[l][i] = false) ∨ at' l i ≤ new))
    ∃ t, exec (.time h minute second) s = .next t ∧ t.minute.val = new ∧ t.second.val = second.val
      ∧ (∀ l i, (¬ across → (due l i → t.marks[l][i] = true) ∧ (¬ due l i → t.marks[l][i] = s.marks[l][i]))
        ∧ (across → t.marks[l][i] = decide (at' l i ≤ new)))
      ∧ (∀ l, ((∃ i, due l i) → t.line l = (s.line l).opened)
        ∧ ((∀ i, ¬ due l i) → t.line l = s.line l))
      ∧ t = { s with minute := t.minute, second := t.second, marks := t.marks, lines := t.lines }

/-! ## Claims -/

/-- The grade of the card for an OFFER: 0 with a circuit to the ship that is not CLEARING, else 1 with an entry
for it, else 2 with a line of the band in REST or ACTIVE without circuit or entry, else 3 (R155). -/
def Obligations.OfferGraded : Prop :=
  ∀ (s : State) (ship : Nat) (band : Band),
    let circuit := ∃ l c, (s.line l).circuit = some c ∧ c.ship = ship ∧ c.state ≠ .clearing
    let entry := ∃ l : LineId, ∃ e ∈ (s.line l).callList, e.ship = ship
    let idle := ∃ l : LineId, (s.lineConfig l).band = band ∧ (s.line l).circuit = none
      ∧ (s.line l).callList = [] ∧ ((s.line l).mode = .rest ∨ (s.line l).mode = .active)
    (circuit → s.gradeFor ship band = 0) ∧ (¬ circuit → entry → s.gradeFor ship band = 1)
      ∧ (¬ circuit → ¬ entry → idle → s.gradeFor ship band = 2)
      ∧ (¬ circuit → ¬ entry → ¬ idle → s.gradeFor ship band = 3)

/-- An OFFER of a key the card does not hold gives a claim when every condition of R154 holds: a CLAIMING record
in the lowest free slot with its pages reserved from the head of the free list, a window, and a CLAIM queued
(R153, R154, R132, R136, R156). -/
def Obligations.OfferGivesClaim : Prop :=
  ∀ (h : Header) (number : MsgNumber) (ship : Fin 131072) (n : Fin 8192) (band : Band)
    (clearAfter : Bool) (s : State) (i : Slot),
    s.reception .offer h h.source true = .taken →
    (∀ j r, s.record j = some r → r.key ≠ ⟨h.source, number⟩) →
    n.val ≠ 0 → 1 ≤ ship.val → ship.val ≤ 99999 →
    (∃ l, (s.lineConfig l).band = band ∧ (s.line l).mode ≠ .disabled ∧ (s.line l).mode ≠ .stopped) →
    s.claims.length < 8 →
    ((∃ l : LineId, ∃ e ∈ (s.line l).callList, e.ship = ship.val)
      ∨ (s.claims.filter (·.needsEntry)).length + s.entriesUsed < 32) →
    s.record i = none → (∀ j < i, s.record j ≠ none) → (n.val + 31) / 32 ≤ s.freePages.length →
    s.queue.length < 24 →
    ∃ t r w, exec (.offer h number ship n band clearAfter) s = .next t
      ∧ t = { s with records := t.records, freePages := s.freePages.drop ((n.val + 31) / 32)
                     claims := s.claims ++ [w]
                     queue := enqueue ⟨63, .claim ⟨h.source, number⟩ (s.gradeFor ship.val band)⟩ s.queue }
      ∧ t.record i = some r ∧ (∀ j, j ≠ i → t.record j = s.record j)
      ∧ r = { key := ⟨h.source, number⟩, state := .claiming, n := n.val, loaded := 0, nextSeq := 0
              pageList := [], reserved := s.freePages.take ((n.val + 31) / 32), loadTimer := false
              withdrawMark := false, takeWaiting := false
              body := .telex { ship := ship.val, band := band, clearAfter := clearAfter, ackCount := 0
                               line := none } }
      ∧ w.key = ⟨h.source, number⟩ ∧ w.slot = i ∧ w.ownGrade = s.gradeFor ship.val band
      ∧ w.noted = false ∧ w.best = none
      ∧ (w.needsEntry = true ↔ ∀ (l : LineId), ∀ e ∈ (s.line l).callList, e.ship ≠ ship.val)

/-- An OFFER of a key the card does not hold changes nothing when a condition of R154 fails. An OFFER of a key
held by a telex record that is LOADING, READY or ON-AIR draws one TAKE, unless one waits for its echo; of a key
held otherwise it changes nothing (R153, R154, R132, R162). -/
def Obligations.OfferWithoutClaim : Prop :=
  ∀ (h : Header) (number : MsgNumber) (ship : Fin 131072) (n : Fin 8192) (band : Band)
    (clearAfter : Bool) (s : State),
    s.reception .offer h h.source true = .taken →
    let key : Key := ⟨h.source, number⟩
    let waits := fun r : Record => (∃ x, r.body = .telex x)
      ∧ (r.state = .loading ∨ r.state = .ready ∨ r.state = .onAir) ∧ r.takeWaiting = false
    ((∀ j r, s.record j = some r → r.key ≠ key) →
      (n.val = 0 ∨ ship.val = 0 ∨ 99999 < ship.val
        ∨ (∀ l, (s.lineConfig l).band = band →
            (s.line l).mode = .disabled ∨ (s.line l).mode = .stopped)
        ∨ 8 ≤ s.claims.length
        ∨ ((∀ (l : LineId), ∀ e ∈ (s.line l).callList, e.ship ≠ ship.val)
            ∧ 32 ≤ (s.claims.filter (·.needsEntry)).length + s.entriesUsed)
        ∨ (∀ j, s.record j ≠ none) ∨ s.freePages.length < (n.val + 31) / 32) →
      exec (.offer h number ship n band clearAfter) s = .next s)
      ∧ ∀ i r, s.recordUnder key = some (i, r) →
        (¬ waits r → exec (.offer h number ship n band clearAfter) s = .next s)
          ∧ (waits r → s.queue.length < 24 →
            ∃ t, exec (.offer h number ship n band clearAfter) s = .next t
              ∧ t.record i = some { r with takeWaiting := true }
              ∧ (∀ j, j ≠ i → t.record j = s.record j)
              ∧ t = { s with records := t.records, queue := enqueue ⟨h.source, .take key⟩ s.queue })

/-- A CLAIM is noted in the window of its key alone: the better of it and the best so far, the lower grade and
then the lower station; the card's own echo makes own-claim NOTED (R157). -/
def Obligations.ClaimNotedInWindow : Prop :=
  ∀ (h : Header) (key : Key) (grade : Fin 4) (s : State),
    s.reception .claim h h.source true = .taken →
    ∃ t, exec (.claim h key grade) s = .next t ∧ t = { s with claims := t.claims }
      ∧ t.claims.length = s.claims.length
      ∧ ∀ (j : Nat) (w : ClaimWindow), s.claims[j]? = some w →
        (w.key ≠ key → t.claims[j]? = some w)
          ∧ (w.key = key → ∃ b, t.claims[j]? = some { w with
                best := some b, noted := w.noted || decide (h.source = s.strap) }
              ∧ (b = ⟨grade, h.source⟩ ∨ w.best = some b)
              ∧ (b.grade < grade ∨ (b.grade = grade ∧ b.station ≤ h.source))
              ∧ ∀ old, w.best = some old →
                b.grade < old.grade ∨ (b.grade = old.grade ∧ b.station ≤ old.station))

/-- The expiry of a window whose best claim is not the card's own, or whose own claim was not seen on the bus,
ends the claim without a take; in the second case the card's unsent CLAIMs for the key leave the queue (R158,
R174). -/
def Obligations.WindowLostAtExpiry : Prop :=
  ∀ (key : Key) (s : State) (w : ClaimWindow), s.claims.find? (fun v => v.key = key) = some w →
    (w.noted = true → (∀ b, w.best = some b → b.station ≠ s.strap) →
      ∃ t, exec (.claimWindowExpiry key) s = .next t ∧ claimEnded s t w ∧ t.queue = s.queue)
      ∧ (w.noted = false → s.reports = [] →
        ∃ t, exec (.claimWindowExpiry key) s = .next t ∧ claimEnded s t w
          ∧ t.queue = s.queue.filter (fun e => !e.isUnsentClaim key))

/-- The expiry of a window the card has won takes the message on the line chosen: the record LOADING with its
load timer running and its TAKE queued and waiting for its echo, the message at the tail of the ship's entry or
in a new entry at the tail of the call list, claims-won one more (R158, R159, R26, R162). Where no line is
chosen, or no entry is there and the pool is full, the claim is abandoned: no TAKE, the record freed with its
pages returned, claims-lost one more (R159). -/
def Obligations.WindowWonAtExpiry : Prop :=
  (∀ (key : Key) (s : State) (w : ClaimWindow) (b : NotedClaim) (r : Record) (x : Telex) (l : LineId),
      s.claims.find? (fun v => v.key = key) = some w → w.noted = true → w.best = some b →
      b.station = s.strap → s.record w.slot = some r → r.body = .telex x →
      s.chooseLine x.ship x.band = some l → s.queue.length < 24 →
      ((s.line l).entry? x.ship ≠ none ∨ s.entriesUsed < 32) →
      ∃ t, exec (.claimWindowExpiry key) s = .next t
        ∧ t.record w.slot = some { r with state := .loading, loadTimer := true, takeWaiting := true
                                          body := .telex { x with line := some l } }
        ∧ (∀ j, j ≠ w.slot → t.record j = s.record j)
        ∧ (∀ m, m ≠ l → t.line m = s.line m)
        ∧ ((s.line l).entry? x.ship = none → t.line l = { s.line l with
            callList := (s.line l).callList ++ [⟨x.ship, x.band, [w.slot], 0, 0, false, none⟩] })
        ∧ (∀ e, (s.line l).entry? x.ship = some e →
          { t.line l with callList := [] } = { s.line l with callList := [] }
            ∧ ∃ e', (t.line l).entry? x.ship = some e' ∧ e'.messages = e.messages ++ [w.slot]
              ∧ e' = { e with messages := e'.messages, recalled := e'.recalled }
              ∧ (e'.recalled = true ↔ e.recalled = true
                  ∨ ∃ c, (s.line l).circuit = some c ∧ c.ship = x.ship ∧ c.state = .clearing))
        ∧ t = { s with records := t.records, lines := t.lines
                       claims := s.claims.filter (fun v => v.key ≠ key)
                       queue := enqueue ⟨key.station, .take key⟩ s.queue
                       counters := { s.counters with claimsWon := bump s.counters.claimsWon } })
    ∧ ∀ (key : Key) (s : State) (w : ClaimWindow) (b : NotedClaim) (r : Record) (x : Telex),
      s.claims.find? (fun v => v.key = key) = some w → w.noted = true → w.best = some b →
      b.station = s.strap → s.record w.slot = some r → r.body = .telex x →
      (s.chooseLine x.ship x.band = none
        ∨ ∃ l, s.chooseLine x.ship x.band = some l ∧ (s.line l).entry? x.ship = none ∧ 32 ≤ s.entriesUsed) →
      ∃ t, exec (.claimWindowExpiry key) s = .next t ∧ claimEnded s t w ∧ t.queue = s.queue

/-- A TAKE by the state of the card's record for its key: the card's own echo clears the waiting note; a lower
station's TAKE drops a LOADING record that has no chunk; a higher station's, or one after the first chunk, or of
a key the card holds READY, ON-AIR or REPORTING, changes nothing; one for an open window ends the claim (R161,
R162, R163). -/
def Obligations.TakeActsByRecord : Prop :=
  ∀ (h : Header) (key : Key) (s : State) (i : Slot) (r : Record),
    s.reception .take h h.source true = .taken → s.recordUnder key = some (i, r) →
    (h.source = s.strap → ∃ t, exec (.takeReceived h key) s = .next t
        ∧ t.record i = some { r with takeWaiting := false } ∧ (∀ j, j ≠ i → t.record j = s.record j)
        ∧ t = { s with records := t.records })
      ∧ (h.source ≠ s.strap → (r.state = .ready ∨ r.state = .onAir ∨ r.state = .reporting
          ∨ (r.state = .loading ∧ (r.nextSeq ≠ 0 ∨ s.strap < h.source)) ∨ ∃ b, r.body = .bulletin b) →
        exec (.takeReceived h key) s = .next s)
      ∧ (∀ x, h.source < s.strap → r.body = .telex x → r.state = .loading → r.nextSeq = 0 →
        ∃ t, exec (.takeReceived h key) s = .next t ∧ telexDropped s t i r x)
      ∧ (∀ x w, h.source ≠ s.strap → r.body = .telex x → r.state = .claiming → s.reports = [] →
        s.claims.find? (fun v => v.key = key) = some w →
        ∃ t, exec (.takeReceived h key) s = .next t ∧ claimEnded s t w
          ∧ t.queue = if w.noted then s.queue else s.queue.filter (fun e => !e.isUnsentClaim key))

/-! ## The message store -/

/-- The chunk a LOADING record waits for is stored: it reads back at the text's next positions, every other
place of the pool reads as before, pages move from reserved to the page-list, and the record is READY with its
timer stopped once its text is whole (R138, R139, R140, R141). -/
def Obligations.TextChunkStored : Prop :=
  ∀ (h : Header) (key : Key) (seq : Fin 256) (chunk : List Byte) (s : State) (i : Slot) (r : Record),
    s.reception .text h key.station true = .taken → 1 ≤ chunk.length → chunk.length ≤ 48 →
    s.recordUnder key = some (i, r) → r.state = .loading →
    ((∃ x, r.body = .telex x) → h.dest = s.strap) → ((∃ b, r.body = .bulletin b) → h.dest = 63) →
    seq.val = r.nextSeq → chunk.length = min 48 (r.n - 48 * r.nextSeq) →
    s.textCanonical → (r.pageList ++ r.reserved).Nodup → r.pageList.length = (r.loaded + 31) / 32 →
    (r.loaded + chunk.length + 31) / 32 ≤ r.pageList.length + r.reserved.length →
    ∃ t r', exec (.text h key seq chunk) s = .next t ∧ t.record i = some r'
      ∧ (∀ j, j ≠ i → t.record j = s.record j) ∧ t = { s with records := t.records, text := t.text }
      ∧ t.readChars r' (r.loaded + 1) chunk.length = chunk
      ∧ (∀ a, (∀ j < chunk.length, a ≠ charAddress r'.pageList (r.loaded + 1 + j)) →
          t.text.read a = s.text.read a)
      ∧ r'.pageList ++ r'.reserved = r.pageList ++ r.reserved
      ∧ r'.pageList.length = (r.loaded + chunk.length + 31) / 32
      ∧ r' = { r with loaded := r.loaded + chunk.length, nextSeq := r.nextSeq + 1
                      pageList := r'.pageList, reserved := r'.reserved
                      state := if r.loaded + chunk.length = r.n then .ready else .loading
                      loadTimer := decide (r.loaded + chunk.length ≠ r.n) }

/-- A LOADING record refused or dropped: its load timer runs out (REFUSED(TEXT-TIMEOUT)); a TEXT skips a chunk
or has a wrong length (REFUSED(TEXT-GAP)); a telex chunk is addressed to another station (dropped without a
report). A chunk already stored changes nothing (R138, R139, R141, R142, R164). -/
def Obligations.LoadingRefusedOrDropped : Prop :=
  ∀ (h : Header) (key : Key) (seq : Fin 256) (chunk : List Byte) (s : State) (i : Slot) (r : Record),
    s.recordUnder key = some (i, r) → r.state = .loading → s.reportsHanded →
    let received := s.reception .text h key.station true = .taken ∧ 1 ≤ chunk.length
      ∧ chunk.length ≤ 48
    let here := ((∃ x, r.body = .telex x) ∧ h.dest = s.strap) ∨ ((∃ b, r.body = .bulletin b) ∧ h.dest = 63)
    (r.loadTimer = true →
        ∃ t, exec (.loadTimerExpiry key) s = .next t ∧ workEnded s t i r (.refused .textTimeout))
      ∧ (received → here → seq.val < r.nextSeq → exec (.text h key seq chunk) s = .next s)
      ∧ (received → here → (r.nextSeq < seq.val
            ∨ (seq.val = r.nextSeq ∧ chunk.length ≠ min 48 (r.n - 48 * r.nextSeq))) →
        ∃ t, exec (.text h key seq chunk) s = .next t ∧ workEnded s t i r (.refused .textGap))
      ∧ (∀ x, received → r.body = .telex x → h.dest ≠ s.strap → h.dest ≠ 63 →
        ∃ t, exec (.text h key seq chunk) s = .next t ∧ telexDropped s t i r x)

/-- A WITHDRAW taken ends the work of a LOADING or READY message and of a LOADING bulletin with
WITHDRAWN(queued), marks an ON-AIR message or a READY bulletin and no more, ends the claim of a CLAIMING
message, and changes nothing for a record in REPORTING (R147, R148, R83, R46, R161). -/
def Obligations.WithdrawActsByState : Prop :=
  ∀ (h : Header) (key : Key) (s : State) (i : Slot) (r : Record),
    s.reception .withdraw h key.station true = .taken → s.recordUnder key = some (i, r) →
    s.reportsHanded →
    let telex := ∃ x, r.body = .telex x
    let bulletin := ∃ b, r.body = .bulletin b
    (r.state = .loading ∨ (telex ∧ r.state = .ready) →
        ∃ t, exec (.withdraw h key) s = .next t ∧ workEnded s t i r (.withdrawn false))
      ∧ ((telex ∧ r.state = .onAir) ∨ (bulletin ∧ r.state = .ready) →
        ∃ t, exec (.withdraw h key) s = .next t ∧ t.record i = some { r with withdrawMark := true }
          ∧ (∀ j, j ≠ i → t.record j = s.record j) ∧ t = { s with records := t.records })
      ∧ (∀ w, telex → r.state = .claiming → s.claims.find? (fun v => v.key = key) = some w →
        w.slot = i → ∃ t, exec (.withdraw h key) s = .next t ∧ claimEnded s t w ∧ t.queue = s.queue)
      ∧ (r.state = .reporting → exec (.withdraw h key) s = .next s)

/-- REPORT_HANDED, with 16 frames or fewer in the transmit queue, hands the oldest report to it, addressed to
the key's station, and frees a record in REPORTING that has no report left (R143, R144, R145). Its frame is the
report's with its content, at precedence 4: the key, and the reason, the cut flag, or the part's channel and
remaining (R143, R79, R172). -/
def Obligations.OldestReportHanded : Prop :=
  ∀ (s : State) (p : Report) (rest : List Report) (r : Record),
    s.reports = p :: rest → s.record p.slot = some r →
    ((reportFrame s r p.item).payload = (match p.item with
        | .delivered => .delivered r.key
        | .returned reason => .returned r.key reason
        | .withdrawn cut => .withdrawn r.key cut
        | .refused reason => .refused r.key reason
        | .conflict => .refused r.key .conflict
        | .bsent l remaining => .bsent r.key (s.lineConfig l).channel remaining)
      ∧ (reportFrame s r p.item).payload.precedence = 4)
      ∧ (s.queue.length ≤ 16 → ∃ t, exec .reportHanded s = .next t
        ∧ t = { s with reports := rest, queue := enqueue (reportFrame s r p.item) s.queue
                       records := t.records }
        ∧ (reportFrame s r p.item).dest = r.key.station
        ∧ (∀ j, j ≠ p.slot → t.record j = s.record j)
        ∧ (r.state = .reporting ∧ (∀ q ∈ rest, q.slot ≠ p.slot) → t.record p.slot = none)
        ∧ (r.state ≠ .reporting ∨ (∃ q ∈ rest, q.slot = p.slot) → t.record p.slot = some r))
      ∧ (16 < s.queue.length → exec .reportHanded s = .next s)

/-! ## Bulletins -/

/-- A post the gate refuses gets one REFUSED, queued for its source, by the first check that applies; nothing
else changes. A post of a held key, or without a target line, changes nothing (R64, R66, R67). -/
def Obligations.PostRefusedInGateOrder : Prop :=
  ∀ (h : Header) (number : MsgNumber) (cls : Fin 16) (n : Fin 8192) (channels : List (Fin 1024))
    (s : State), s.reception .post h h.source true = .taken →
    1 ≤ channels.length → channels.length ≤ 8 → s.queue.length < 24 →
    let key : Key := ⟨h.source, number⟩
    let held := ∃ j r, s.record j = some r ∧ r.key = key
    let target := ∃ l : LineId, (s.lineConfig l).channel ≠ 0 ∧ (s.line l).mode ≠ .disabled
      ∧ ∃ c ∈ channels, c.val = (s.lineConfig l).channel
    let out := s.config.classCount ≤ cls.val
    let closed := s.config.classes[cls].kind = .closed
    let low := s.config.classes[cls].maxRank < s.config.rankMap[h.source]
    let full := (∀ j, s.record j ≠ none) ∨ s.freePages.length < (n.val + 31) / 32
    let refused := fun reason : Reason =>
      exec (.post h number cls n channels) s
        = .next { s with queue := enqueue ⟨h.source, .refused key reason⟩ s.queue }
    (held ∨ ¬ target → exec (.post h number cls n channels) s = .next s)
      ∧ (¬ held → target →
        (out → refused .range)
          ∧ (¬ out → closed → refused .closed)
          ∧ (¬ out → ¬ closed → low → refused .rank)
          ∧ (¬ out → ¬ closed → ¬ low → n.val = 0 → refused .range)
          ∧ (¬ out → ¬ closed → ¬ low → n.val ≠ 0 → full → refused .storeFull))

/-- A post the gate accepts makes one LOADING record in the lowest free slot, its load timer running and its
pages reserved, with one QUEUED part for each target line, and each part joins the queue of its class type on
its line: the tail of the cut-in or free queue, or behind the parts of its class or a lower one in the window
queue (R66, R68, R69, R70, R132, R136). -/
def Obligations.PostAccepted : Prop :=
  ∀ (h : Header) (number : MsgNumber) (cls : Fin 16) (n : Fin 8192) (channels : List (Fin 1024))
    (s : State) (i : Slot), s.reception .post h h.source true = .taken →
    1 ≤ channels.length → channels.length ≤ 8 →
    (∀ j r, s.record j = some r → r.key ≠ ⟨h.source, number⟩) →
    s.targetLines channels ≠ [] → cls.val < s.config.classCount →
    s.config.classes[cls].kind ≠ .closed →
    s.config.rankMap[h.source] ≤ s.config.classes[cls].maxRank → n.val ≠ 0 →
    s.record i = none → (∀ j < i, s.record j ≠ none) → (n.val + 31) / 32 ≤ s.freePages.length →
    let e := s.config.classes[cls]
    ∃ t, exec (.post h number cls n channels) s = .next t
      ∧ t.record i = some
        { key := ⟨h.source, number⟩, state := .loading, n := n.val, loaded := 0, nextSeq := 0
          pageList := [], reserved := s.freePages.take ((n.val + 31) / 32), loadTimer := true
          withdrawMark := false, takeWaiting := false
          body := .bulletin
            { cls := cls, kind := e.kind, repeats := e.repeats, cutCounted := false
              parts := (s.targetLines channels).map fun l =>
                { line := l, state := .queued, passMark := false, formStep := 0
                  remaining := if e.repeats = 0 then .standing else .times e.repeats } } }
      ∧ (∀ j, j ≠ i → t.record j = s.record j)
      ∧ (∀ l, l ∉ s.targetLines channels → t.line l = s.line l)
      ∧ (∀ l ∈ s.targetLines channels,
        (e.kind = .cutIn → t.line l = { s.line l with cutInQueue := (s.line l).cutInQueue ++ [i] })
          ∧ (e.kind = .free → t.line l = { s.line l with freeQueue := (s.line l).freeQueue ++ [i] })
          ∧ (e.kind = .window → ∃ a b, (s.line l).windowQueue = a ++ b
              ∧ t.line l = { s.line l with windowQueue := a ++ [i] ++ b }
              ∧ (∀ j ∈ a, t.classOf j ≤ cls.val) ∧ ∀ j, b.head? = some j → cls.val < t.classOf j))
      ∧ t = { s with records := t.records, lines := t.lines
                     freePages := s.freePages.drop ((n.val + 31) / 32) }

/-- The on-air form of a bulletin is two BHEAD cycles, ceil(n/6) BTEXT cycles and one BEND cycle, and its BTEXT
cycles carry the whole text, in order (R74, R75). At the settling stage of the boundary that ends a BEND the
sending completes: remaining, place and pass-mark, bulletin-sendings, and one BSENT with the new remaining (R76,
R77, R79); the record whose parts are all DONE is retired (R78). An abandoned sending leaves its part QUEUED, a
free one first in its queue (log 17), without a BSENT (R80, R81). A boundary removes every part of a marked
record that is not on air (R84), and the last part removed finishes the withdrawal, cut where a part was counted
as cut (R85, R86). -/
def Obligations.OnAirFormCarriesText : Prop :=
  (∀ (s : State) (r : Record),
    let m := (r.n + 5) / 6
    let chars := fun c : Cycle => match c with
      | .btext chars => chars
      | _ => []
    (∀ b, r.body = .bulletin b → s.formCycle r 1 = .bhead r.key b.cls r.n
        ∧ s.formCycle r 2 = .bhead r.key b.cls r.n)
      ∧ (∀ step, 3 ≤ step → step ≤ m + 2 → ∃ text, s.formCycle r step = .btext text
        ∧ text.length = min 6 (r.n - 6 * (step - 3)))
      ∧ s.formCycle r (m + 3) = .bend
      ∧ (List.range m).flatMap (fun j => chars (s.formCycle r (j + 3))) = s.readChars r 1 r.n)
    ∧ (∀ (l : LineId) (s : State) (i : Slot) (r : Record) (b : Bulletin) (p : Part),
      (s.line l).ended = some .bend → s.bulletinOnAir l = some i → s.record i = some r →
      r.body = .bulletin b → s.part? i l = some p →
      let x := s.line l
      let u := s.settled l
      let y := u.line l
      let left : Remaining := match p.remaining with
        | .times n => .times (n - 1)
        | .standing => .standing
      y.counters = { x.counters with bulletinSendings := bump x.counters.bulletinSendings }
        ∧ (⟨i, .bsent l left⟩ : Report) ∈ u.reports
        ∧ (∀ remaining, (⟨i, .bsent l remaining⟩ : Report) ∈ u.reports → remaining = left)
        ∧ (left ≠ .times 0 →
          (b.kind ≠ .window → u.part? i l
              = some { p with remaining := left, state := .queued, formStep := 0, passMark := false })
            ∧ (b.kind = .window → x.window.state = .isOpen → i ∈ x.windowQueue →
              y.windowQueue = x.windowQueue
              ∧ u.part? i l = some { p with
                remaining := left, state := .queued, formStep := 0
                passMark := decide (y.window.state = .isOpen) })
            ∧ (b.kind = .cutIn → y.cutInQueue = x.cutInQueue.erase i ++ [i])
            ∧ (b.kind = .free → y.freeQueue = x.freeQueue.erase i ++ [i]))
        ∧ (left = .times 0 → y.cutInQueue = x.cutInQueue.erase i ∧ y.windowQueue = x.windowQueue.erase i
          ∧ y.freeQueue = x.freeQueue.erase i)
        ∧ (left = .times 0 → r.withdrawMark = false →
          (∀ q ∈ b.parts, q = p ∨ (q.line ≠ l ∧ q.state = .done)) →
          u.freePages = s.freePages ++ r.pageList ++ r.reserved
            ∧ ∃ r', u.record i = some r' ∧ r'.state = .reporting ∧ r'.pageList = [] ∧ r'.reserved = [])
        ∧ ((∃ q ∈ b.parts, q.line ≠ l ∧ q.state ≠ .done) → u.freePages = s.freePages
          ∧ ∃ r', u.record i = some r' ∧ r'.state = r.state ∧ r'.pageList = r.pageList))
    ∧ (∀ (l : LineId) (s : State) (i : Slot) (p : Part), s.part? i l = some p →
      let t := s.abandonSending l i
      t.part? i l = some { p with state := .queued, formStep := 0, passMark := false }
        ∧ t.line l = { s.line l with freeQueue := if i ∈ (s.line l).freeQueue
            then i :: (s.line l).freeQueue.erase i else (s.line l).freeQueue }
        ∧ (∀ m, m ≠ l → t.line m = s.line m) ∧ (∀ j, j ≠ i → t.record j = s.record j)
        ∧ t = { s with records := t.records, lines := t.lines })
    ∧ (∀ (l : LineId) (s : State), s.phase = .settled → s.messagesPlaced →
      ∃ t, exec (.boundary l) s = .next t
        ∧ ∀ i r p, s.record i = some r → r.withdrawMark = true → s.part? i l = some p → p.state ≠ .onAir →
          t.part? i l = none)
    ∧ ∀ (l : LineId) (s : State) (i : Slot) (r : Record) (b : Bulletin) (cut : Bool),
      s.record i = some r → r.body = .bulletin b → r.withdrawMark = true →
      let t := s.withdrawPart i l cut
      let parts := b.parts.filter fun p => p.line ≠ l
      (t.line l = { s.line l with
          cutInQueue := (s.line l).cutInQueue.erase i, windowQueue := (s.line l).windowQueue.erase i
          freeQueue := (s.line l).freeQueue.erase i })
        ∧ (∀ j, j ≠ i → t.record j = s.record j)
        ∧ (parts ≠ [] → t.reports = s.reports ∧ t.freePages = s.freePages ∧ t.record i = some { r with
            body := .bulletin { b with parts := parts, cutCounted := b.cutCounted || cut } })
        ∧ (parts = [] → t.freePages = s.freePages ++ r.pageList ++ r.reserved
          ∧ t.reports = s.reports.filter (fun q => !q.isBsent i) ++ [⟨i, .withdrawn (b.cutCounted || cut)⟩]
          ∧ ∃ r', t.record i = some r' ∧ r'.state = .reporting ∧ r'.pageList = [] ∧ r'.reserved = [])

/-! ## Orders -/

/-- SILENCE adds the bands of its mask to the silenced set and RESUME removes them; each leaves a silence answer
for its source on every line of a band it names that is not DISABLED, and changes nothing else (R13). -/
def Obligations.SilenceOrdersChangeSet : Prop :=
  ∀ (h : Header) (mask : BandMask) (s : State),
    let answered := fun t : State => ∀ l : LineId,
      ((s.line l).mode ≠ .disabled ∧ mask.getLsbD (s.lineConfig l).band.val = true →
          t.line l = { s.line l with silenceAnswer := some h.source })
        ∧ ((s.line l).mode = .disabled ∨ mask.getLsbD (s.lineConfig l).band.val = false →
          t.line l = s.line l)
    (s.reception .silence h h.source true = .taken →
      ∃ t, exec (.silence h mask) s = .next t ∧ answered t
        ∧ (∀ b < 8, t.silenced.getLsbD b = (s.silenced.getLsbD b || mask.getLsbD b))
        ∧ t = { s with silenced := t.silenced, lines := t.lines })
      ∧ (s.reception .resume h h.source true = .taken →
        ∃ t, exec (.resume h mask) s = .next t ∧ answered t
          ∧ (∀ b < 8, t.silenced.getLsbD b = (s.silenced.getLsbD b && !mask.getLsbD b))
          ∧ t = { s with silenced := t.silenced, lines := t.lines })

/-- A line order taken: a DISABLED line answers NO-LINE at once, a line without a held order holds it with its
source, a line that holds one answers BUSY at once with its mode (R15). -/
def Obligations.LineOrderHeldOrAnswered : Prop :=
  ∀ (h : Header) (l : LineId) (s : State) (c : Instr) (k : FrameKind) (order : LineOrder),
    ((c, k, order) = (.stopLine h l, .stopLine, .stop)
      ∨ (c, k, order) = (.startLine h l, .startLine, .start)
      ∨ (c, k, order) = (.patternOn h l, .patternOn, .patternOn)
      ∨ (c, k, order) = (.patternOff h l, .patternOff, .patternOff)) →
    s.reception k h h.source true = .taken →
    ((s.line l).mode = .disabled → s.queue.length < 24 →
        exec c s = .next
          { s with queue := enqueue ⟨h.source, .lineState l .disabled .noLine⟩ s.queue })
      ∧ ((s.line l).mode ≠ .disabled → (s.line l).held = none →
        ∃ t, exec c s = .next t ∧ t.line l = { s.line l with held := some ⟨order, h.source⟩ }
          ∧ (∀ m, m ≠ l → t.line m = s.line m) ∧ t = { s with lines := t.lines })
      ∧ ((s.line l).mode ≠ .disabled → (s.line l).held ≠ none → s.queue.length < 24 →
        exec c s = .next
          { s with queue := enqueue ⟨h.source, .lineState l (s.line l).mode .busy⟩ s.queue })

/-! ## ANNOUNCE and RESTART -/

/-- An ANNOUNCE from another station that takes no line of the card: its source is known, a reply with the
card's values is queued where R181 asks for one, and while the start interval runs its silenced bands join the
set and the first valid time sets the clock; nothing else changes. The card's own echo, and any ANNOUNCE to a
card in FAULT, changes nothing at all (R179, R180, R181, R182). The model's choices: the reply carries the
values before the adoption of the same ANNOUNCE (log 20), a minute above 1439 sets nothing (log 21), and a new
station joins the tail of the list that holds the known set (log 24). -/
def Obligations.AnnounceMetWithoutConflict : Prop :=
  ∀ (h : Header) (a : Announcement) (s : State),
    s.reception .announce h h.source true = .taken →
    (h.source = s.strap ∨ s.fault = true → exec (.announce h a) s = .next s) ∧
    (h.source ≠ s.strap → s.fault = false → s.reportsHanded → s.queue.length < 24 →
    (s.strap < h.source ∨ ∀ l m : LineId, (s.line l).mode = .disabled
      ∨ (s.lineConfig l).channel = 0 ∨ a.channels[m].val ≠ (s.lineConfig l).channel) →
    let known := h.source ∈ s.known
    let reply := a.reply = false ∧ (a.restarted = false ∨ ¬ known)
    let sets := s.startInterval = true ∧ a.timeValid = true ∧ s.timeValid = false ∧ a.minute.val < 1440
    ∃ t, exec (.announce h a) s = .next t
      ∧ (known → t.known = s.known) ∧ (¬ known → t.known = s.known ++ [h.source])
      ∧ (reply → t.queue = enqueue ⟨63, .announce (s.announcement true false)⟩ s.queue)
      ∧ (¬ reply → t.queue = s.queue)
      ∧ (s.startInterval = true → t.silenced = s.silenced ||| a.silenced)
      ∧ (s.startInterval = false → t.silenced = s.silenced)
      ∧ (sets → t.minute.val = a.minute.val ∧ t.second = 0 ∧ t.timeValid = true)
      ∧ (¬ sets → t.minute = s.minute ∧ t.second = s.second ∧ t.timeValid = s.timeValid)
      ∧ t = { s with known := t.known, queue := t.queue, silenced := t.silenced, minute := t.minute
                     second := t.second, timeValid := t.timeValid })

/-- An ANNOUNCE of a lower station takes a line whose channel it lists: the line is DISABLED at once, with no
circuit, entry, order or window left, keyed lines handed the immediate UNKEYED under the tag in progress; lines
it does not list keep their mode and circuit (R182, R183, R4, R8, R94); a held order is answered NO-LINE, its
room in the queue given (R8, R182). Where it takes one line alone, whose current message is unmarked: each
entry, an empty one too, joins a receiving line of its band with all it holds, its messages' records named to
that line; without a receiving line each message has RETURNED(CONFLICT); each part of the line is gone, with
REFUSED(CONFLICT), or WITHDRAWN(cut) as the last part of a marked record (R183, R130, R82, R85, R86, R149). A
marked current message is finished as WITHDRAWN(cut), and its entry goes on with the rest, or is freed where
nothing is left (R48, R183). An entry moved goes to the receiving line of least backlog (R130). That a part not
on air counts as cut here is R183's rule. The model's readings: a line is keyed by its mode (log 18), and a
record in REPORTING loses its DONE part with a REFUSED(CONFLICT) too (log 16). -/
def Obligations.LowerStationTakesChannel : Prop :=
  (∀ (h : Header) (a : Announcement) (s : State) (l : LineId),
    s.reception .announce h h.source true = .taken → h.source < s.strap → s.fault = false →
    let listed := fun m : LineId => (s.line m).mode ≠ .disabled ∧ (s.lineConfig m).channel ≠ 0
      ∧ ∃ j : LineId, a.channels[j].val = (s.lineConfig m).channel
    listed l →
    ∃ t, exec (.announce h a) s = .next t ∧ (t.line l).mode = .disabled ∧ (t.line l).circuit = none
      ∧ (t.line l).callList = [] ∧ (t.line l).held = none ∧ (t.line l).silenceAnswer = none
      ∧ (t.line l).keyupCount = 0 ∧ (t.line l).fillerRun = 0 ∧ (t.line l).window.state = .closed
      ∧ (t.line l).window.lastEst = (s.line l).window.lastEst
      ∧ (t.line l).arbiter.turn = .noTurn
      ∧ (t.line l).counters = { (s.line l).counters with
          circuitsLost := if (s.line l).circuit = none then (s.line l).counters.circuitsLost
            else bump (s.line l).counters.circuitsLost }
      ∧ ((s.line l).mode.keyed = true → (t.line l).outcome = none
        ∧ (t.line l).cycle = (s.line l).cycle.map fun r => ⟨r.tag, 0, .unkeyed⟩)
      ∧ ((s.line l).mode.keyed = false → (t.line l).cycle = (s.line l).cycle)
      ∧ (∀ held, (s.line l).held = some held → s.queue.length < 20 →
        (⟨⟨held.source, .lineState l .disabled .noLine⟩, false⟩ : Queued) ∈ t.queue)
      ∧ ∀ m, ¬ listed m → (t.line m).mode = (s.line m).mode ∧ (t.line m).circuit = (s.line m).circuit)
    ∧ (∀ (h : Header) (a : Announcement) (s : State) (l : LineId),
      s.reception .announce h h.source true = .taken → h.source < s.strap → s.fault = false →
      let listed := fun m : LineId => (s.line m).mode ≠ .disabled ∧ (s.lineConfig m).channel ≠ 0
        ∧ ∃ j : LineId, a.channels[j].val = (s.lineConfig m).channel
      listed l → (∀ m, listed m → m = l) → s.shipsOnce → s.messagesPlaced → s.queue.length < 23 →
      (∀ c i, (s.line l).circuit = some c → c.current = some i → s.isMarked i = false) →
      let receives := fun (band : Band) (m : LineId) =>
        m ≠ l ∧ (s.lineConfig m).band = band ∧ (s.line m).mode ≠ .disabled
      let current := fun i : Slot => ∃ c, (s.line l).circuit = some c ∧ c.current = some i
      ∃ t, exec (.announce h a) s = .next t
        ∧ (∀ m, m ≠ l → (s.line m).callList <+: (t.line m).callList)
        ∧ (∀ e ∈ (s.line l).callList,
          ((∃ m, receives e.band m) → ∃ m, receives e.band m
              ∧ { e with recalled := false } ∈ (t.line m).callList
              ∧ ∀ i ∈ e.messages, ∀ r x, s.record i = some r → r.body = .telex x →
                (current i → t.record i
                    = some { r with state := .ready, body := .telex { x with line := some m } })
                  ∧ (¬ current i → t.record i = some { r with body := .telex { x with line := some m } }))
            ∧ ((∀ m, ¬ receives e.band m) → ∀ i ∈ e.messages, ∀ r, s.record i = some r →
              reported s t i r (.returned .conflict)
                ∧ ∀ r', t.record i = some r' → r'.state = .reporting ∧ r'.pageList = []
                  ∧ r'.reserved = []))
        ∧ ∀ i r b, s.record i = some r → r.body = .bulletin b → s.part? i l ≠ none →
          t.part? i l = none
            ∧ ((s.line l).cutInQueue.Nodup → i ∉ (t.line l).cutInQueue)
            ∧ ((s.line l).windowQueue.Nodup → i ∉ (t.line l).windowQueue)
            ∧ ((s.line l).freeQueue.Nodup → i ∉ (t.line l).freeQueue)
            ∧ (r.withdrawMark = false → reported s t i r .conflict)
            ∧ (r.withdrawMark = true → (∀ q ∈ b.parts, q.line = l) →
              reported s t i r (.withdrawn true)))
    ∧ (∀ (h : Header) (a : Announcement) (s : State) (l : LineId) (c : Circuit) (i : Slot) (r : Record)
        (e : Entry), s.reception .announce h h.source true = .taken → h.source < s.strap → s.fault = false →
      let listed := fun m : LineId => (s.line m).mode ≠ .disabled ∧ (s.lineConfig m).channel ≠ 0
        ∧ ∃ j : LineId, a.channels[j].val = (s.lineConfig m).channel
      listed l → (∀ m, listed m → m = l) → s.shipsOnce → s.messagesPlaced → s.queue.length < 23 →
      (s.line l).circuit = some c → c.current = some i → s.record i = some r → r.withdrawMark = true →
      (s.line l).entry? c.ship = some e →
      let receives := fun m : LineId =>
        m ≠ l ∧ (s.lineConfig m).band = e.band ∧ (s.line m).mode ≠ .disabled
      let left := e.messages.erase i
      ∃ t, exec (.announce h a) s = .next t ∧ reported s t i r (.withdrawn true) ∧ workOver t i
        ∧ (left = [] → ∀ m, ∀ e' ∈ (t.line m).callList, e'.ship ≠ c.ship)
        ∧ (left ≠ [] → (∃ m, receives m) → ∃ m, receives m
          ∧ { e with messages := left, recalled := false } ∈ (t.line m).callList)
        ∧ ((∀ m, ¬ receives m) → ∀ j ∈ left, ∀ r', s.record j = some r' →
          reported s t j r' (.returned .conflict) ∧ workOver t j))
    ∧ ∀ (s : State) (e : Entry) (l : LineId),
      let receives := fun m : LineId => (s.lineConfig m).band = e.band ∧ (s.line m).mode ≠ .disabled
      let t := s.moveEntry e
      (receives l → (∀ m, receives m →
          s.backlog l < s.backlog m ∨ (s.backlog l = s.backlog m ∧ l ≤ m)) →
        t.line l = { s.line l with callList := (s.line l).callList ++ [{ e with recalled := false }] }
          ∧ (∀ m, m ≠ l → t.line m = s.line m) ∧ t = { s with lines := t.lines, records := t.records })
        ∧ ((∀ m, ¬ receives m) → t.lines = s.lines
          ∧ t.reports = s.reports ++ e.messages.map fun i => ⟨i, .returned .conflict⟩)

/-- RESTART clears the card: every record free or REPORTING without pages, all 2048 pages free, no claim window,
counters and marks at 0, every line at its RESTART values with its cycle record kept, and the restarted ANNOUNCE
queued; clock, silenced set, configuration, known stations, strap and text stay (R184, R22, R50, R87, R90, R94,
R104, R150, R161, R165, R177). Every frame queued stays, and every record that was LOADING, READY or ON-AIR has
its RETURNED(RESTART), in the transmit queue or waiting in the report list (R150, R144); nothing else joins the
queue but reports that waited. That reports are handed before the ANNOUNCE is offered is the model's reading
(log 6). -/
def Obligations.RestartClearsCard : Prop :=
  ∀ (h : Header) (s : State), s.reception .restart h h.source true = .taken →
    s.reportingEmpty → s.pagesConserved → s.queue.length < 24 →
    ∃ t q, exec (.restart h) s = .next t
      ∧ t.queue = enqueue ⟨63, .announce (t.announcement false true)⟩ q
      ∧ s.queue.Sublist q
      ∧ (∀ e ∈ q, e ∈ s.queue ∨ ∃ i r item, s.record i = some r
        ∧ (item = .returned .restart ∨ (⟨i, item⟩ : Report) ∈ s.reports)
        ∧ e = ⟨reportFrame s r item, false⟩)
      ∧ (∀ i r, s.record i = some r → r.state = .loading ∨ r.state = .ready ∨ r.state = .onAir →
        reported s t i r (.returned .restart))
      ∧ (∀ i r, t.record i = some r → r.state = .reporting ∧ r.pageList = [] ∧ r.reserved = [])
      ∧ t.freePages.Perm (List.finRange 2048) ∧ t.claims = [] ∧ t.counters = .zero
      ∧ (∀ (l : LineId) (i : Fin 8), t.marks[l][i] = false)
      ∧ (∀ l, t.line l = { Line.reset with
          cycle := (s.line l).cycle
          mode := if (s.line l).mode = .disabled then .disabled
            else if s.silencedLine l then .silent else .rest })
      ∧ (16 < s.queue.length → ∀ i r, s.record i = some r →
          r.state = .loading ∨ r.state = .ready ∨ r.state = .onAir →
          (⟨i, .returned .restart⟩ : Report) ∈ t.reports)
      ∧ t = { s with records := t.records, freePages := t.freePages, reports := t.reports
                     claims := t.claims, queue := t.queue, counters := t.counters, marks := t.marks
                     lines := t.lines }

/-! ## The bus port -/

/-- A frame that passes checks 1 to 5 from a source of too low a rank, or a TEXT or WITHDRAW from another than
its poster, is ignored and counted in rank-refused, and nothing else changes (R168, R170). A frame of a kind
taken at the card's own station, or there and at 63, changes nothing at any other destination and is not counted
(R169). -/
def Obligations.RankRefusedCounted : Prop :=
  (∀ (h : Header) (s : State) (c : Instr), s.phase = .settled → s.fault = false → h.source ≠ 63 →
    let rank := s.config.rankMap[h.source]
    let here := h.dest = s.strap
    let addressed := here ∨ h.dest = 63
    ((rank ≠ 0 ∧ addressed ∧ ((∃ m, c = .silence h m) ∨ (∃ m, c = .resume h m)
          ∨ (∃ l, c = .stopLine h l) ∨ ∃ l, c = .startLine h l))
      ∨ (rank ≠ 0 ∧ here ∧ c = .restart h)
      ∨ (1 < rank ∧ addressed ∧ ((∃ l, c = .patternOn h l) ∨ (∃ l, c = .patternOff h l)
          ∨ ∃ m x, c = .time h m x))
      ∨ (2 < rank ∧ addressed ∧ ∃ number ship n band clear, c = .offer h number ship n band clear)
      ∨ (2 < rank ∧ here ∧ ∃ x, c = .statusQuery h x)
      ∨ (∃ key q chunk, c = .text h key q chunk ∧ h.source ≠ key.station ∧ 1 ≤ chunk.length
          ∧ chunk.length ≤ 48)
      ∨ (addressed ∧ rank ≠ 0 ∧ ∃ key, c = .withdraw h key ∧ h.source ≠ key.station)) →
    exec c s = .next
      { s with counters := { s.counters with rankRefused := bump s.counters.rankRefused } })
    ∧ ∀ (h : Header) (s : State) (c : Instr), s.phase = .settled → h.source ≠ 63 → h.dest ≠ s.strap →
      (c = .restart h ∨ (∃ x, c = .statusQuery h x))
        ∨ (h.dest ≠ 63 ∧ ((∃ m, c = .silence h m) ∨ (∃ m, c = .resume h m) ∨ (∃ l, c = .stopLine h l)
          ∨ (∃ l, c = .startLine h l) ∨ (∃ l, c = .patternOn h l) ∨ (∃ l, c = .patternOff h l)
          ∨ (∃ m x, c = .time h m x) ∨ (∃ key, c = .withdraw h key)
          ∨ (∃ number ship n band clear, c = .offer h number ship n band clear)
          ∨ ∃ number cls n channels, c = .post h number cls n channels ∧ 1 ≤ channels.length
            ∧ channels.length ≤ 8)) →
      exec c s = .next s

/-- A frame of a kind the card acts on, STATUS QUERY apart, changes nothing on a card in FAULT and is not
counted (R171, R179), but that a frame that fails checks 1 to 4 counts in bad-frames, and a TEXT from another
than its poster in rank-refused, as on any card (R168, R170). -/
def Obligations.FaultCardDropsFrames : Prop :=
  ∀ (c : Instr) (s : State) (k : FrameKind) (h : Header) (payload : List Byte), s.phase = .settled →
    s.fault = true → frameOf c = some (k, h, payload) → (∀ h x, c ≠ .statusQuery h x) →
    let bad := h.source = 63
      ∨ (∃ key q chunk, c = .text h key q chunk ∧ (chunk = [] ∨ 48 < chunk.length))
      ∨ ∃ number cls n channels, c = .post h number cls n channels
        ∧ (channels = [] ∨ 8 < channels.length)
    let refused := ∃ key q chunk, c = .text h key q chunk ∧ h.source ≠ key.station
    (bad → exec c s = .next
        { s with counters := { s.counters with badFrames := bump s.counters.badFrames } })
      ∧ (¬ bad → refused → exec c s = .next
        { s with counters := { s.counters with rankRefused := bump s.counters.rankRefused } })
      ∧ (¬ bad → ¬ refused → exec c s = .next s)

/-- A STATUS QUERY taken queues one STATUS of the card (selector 4) or of a line (0 to 3) for its source, with
the values of that event; another selector changes nothing (R175, R176). -/
def Obligations.StatusQueryAnswered : Prop :=
  ∀ (h : Header) (selector : Fin 256) (s : State),
    s.reception .statusQuery h h.source true = .taken → s.queue.length < 24 →
    (selector.val = 4 → exec (.statusQuery h selector) s = .next { s with
        queue := enqueue ⟨h.source, .cardStatus
          { fault := s.fault, timeValid := s.timeValid, badFrames := s.counters.badFrames
            rankRefused := s.counters.rankRefused, framesDiscarded := s.counters.framesDiscarded
            claimsWon := s.counters.claimsWon, claimsLost := s.counters.claimsLost
            freeSlots := s.freeSlotCount, freePages := s.freePages.length
            openWindows := s.claims.length, silenced := s.silenced, minute := s.minute.val }⟩ s.queue })
      ∧ (∀ l : LineId, selector.val = l.val → exec (.statusQuery h selector) s = .next { s with
        queue := enqueue ⟨h.source, .lineStatus
          { line := l, mode := (s.line l).mode, circuit := (s.line l).circuit.map (·.state)
            ship := ((s.line l).circuit.map (·.ship)).getD 0
            q := ((s.line l).circuit.map (·.q)).getD 0, lastEst := (s.line l).window.lastEst
            estSaturated := (s.line l).window.estSaturated
            cutInLength := (s.line l).cutInQueue.length
            windowLength := (s.line l).windowQueue.length, freeLength := (s.line l).freeQueue.length
            counters := (s.line l).counters }⟩ s.queue })
      ∧ (4 < selector.val → exec (.statusQuery h selector) s = .next s)

/-- A bad frame is counted; one with a bad CRC ends every open claim window as well, each record freed, its
pages at the tail of the free list, and the card's CLAIMs for those windows that have not been seen on the bus
and are not on the wire leave the queue (R168, R160, R169, R137). The order of several windows, that of their
opening, is the model's choice (log 22). A frame that check 5 ignores changes nothing. -/
def Obligations.BadFrameCounted : Prop :=
  ∀ (check : FailedCheck) (h : Header) (k : FrameKind) (s : State),
    exec (.ignoredFrame h k) s = .next s
      ∧ (s.phase = .settled → check ≠ .crc ∨ (s.claims = [] ∧ s.reportsHanded) →
        exec (.badFrame check) s = .next
          { s with counters := { s.counters with badFrames := bump s.counters.badFrames } })
      ∧ (s.phase = .settled → ∃ t, exec (.badFrame .crc) s = .next t ∧ t.claims = []
        ∧ t.counters.badFrames = bump s.counters.badFrames
        ∧ t.counters.claimsLost = Nat.iterate bump s.claims.length s.counters.claimsLost
        ∧ (∀ w ∈ s.claims, t.record w.slot = none) ∧ t.lines = s.lines
        ∧ ((s.claims.map (·.slot)).Nodup →
          t.freePages = s.freePages ++ s.claims.flatMap fun w => s.pagesOf w.slot)
        ∧ (s.reports = [] → t.queue = s.queue.filter fun e =>
          !(s.claims.any fun w => !w.noted && e.isUnsentClaim w.key)))

/-- At an idle instant the first frame in queue order goes on the wire; a contention lost or a sending cut short
leaves it in its place, off the wire (R166, R167); with nothing on the wire these change nothing (log 7). -/
def Obligations.SendingStartsAndStops : Prop :=
  ∀ s : State,
    (s.queue = [] → exec .contention s = .next s)
      ∧ (∀ e rest, s.queue = e :: rest → (∀ q ∈ s.queue, q.onWire = false) →
        exec .contention s = .next { s with queue := { e with onWire := true } :: rest })
      ∧ (∀ c, c = .contentionLost ∨ c = .sendingCutShort →
        ∃ t, exec c s = .next t ∧ t = { s with queue := t.queue }
          ∧ t.queue.map (·.frame) = s.queue.map (·.frame) ∧ ∀ q ∈ t.queue, q.onWire = false)

/-- The end of a sending takes the frame on the wire from the queue, and the store hands its oldest reports, one
frame each, until none is left or more than 16 frames stand in the queue; the frames kept stand in their order,
and a record in REPORTING whose last report is handed is freed (R167, R174, R144, R145). With nothing on the
wire it changes nothing (log 7). The premise that each report's record is held is kept by every step
(StepHandsReports). -/
def Obligations.SentFrameLeavesQueue : Prop :=
  ∀ s : State,
    ((∀ e ∈ s.queue, e.onWire = false) → exec .sendingComplete s = .next s)
      ∧ ((∃ e ∈ s.queue, e.onWire = true) → s.reportsOwned →
        let kept := s.queue.filter fun e => !e.onWire
        let n := min s.reports.length (17 - kept.length)
        let frames := (s.reports.take n).filterMap fun p =>
          (s.record p.slot).map fun r => (⟨reportFrame s r p.item, false⟩ : Queued)
        ∃ t, exec .sendingComplete s = .next t ∧ t.reports = s.reports.drop n
          ∧ t.queue.Perm (kept ++ frames) ∧ kept.Sublist t.queue
          ∧ (∀ i r, s.record i = some r → t.record i = some r
            ∨ (t.record i = none ∧ r.state = .reporting ∧ ∀ p ∈ t.reports, p.slot ≠ i))
          ∧ (∀ i r, s.record i = some r → r.state = .reporting →
            (∃ p ∈ s.reports.take n, p.slot = i) → (∀ p ∈ t.reports, p.slot ≠ i) → t.record i = none)
          ∧ (∀ i, s.record i = none → t.record i = none)
          ∧ (n = 0 → t.queue = kept ∧ t.records = s.records)
          ∧ t = { s with queue := t.queue, reports := t.reports, records := t.records })

/-- A frame offered to the transmit queue enters it by order, where there is room: behind every frame of its
precedence or a lower one, with the precedences of R172; a full queue discards one frame and counts it: the
latest of the largest precedence above the offered one's that is not on the wire, or else the offered frame
(R172, R173). A discarded TAKE clears the TAKE-waiting note of its key (R162), and no other discard changes a
record. -/
def Obligations.OfferedFrameEntersOrDisplaces : Prop :=
  (∀ (s : State) (f : Frame),
    (s.queue.length < 24 → s.offerFrame f = { s with queue := enqueue f s.queue })
      ∧ (s.queue.length = 24 →
        (s.offerFrame f).counters
            = { s.counters with framesDiscarded := bump s.counters.framesDiscarded }
          ∧ ((∀ e ∈ s.queue, e.onWire = true ∨ e.precedence ≤ f.payload.precedence) →
            (s.offerFrame f).queue = s.queue
              ∧ (∀ key i r, f.payload = .take key → s.recordUnder key = some (i, r) →
                (s.offerFrame f).record i = some { r with takeWaiting := false }
                  ∧ ∀ j, j ≠ i → (s.offerFrame f).record j = s.record j)
              ∧ ((∀ key, f.payload ≠ .take key) → (s.offerFrame f).records = s.records))
          ∧ ((∃ e ∈ s.queue, e.onWire = false ∧ f.payload.precedence < e.precedence) →
            (s.offerFrame f).records = s.records
              ∧ ∃ a e b, s.queue = a ++ e :: b ∧ (s.offerFrame f).queue = enqueue f (a ++ b)
                ∧ e.onWire = false ∧ f.payload.precedence < e.precedence
                ∧ (∀ x ∈ a, x.onWire = true ∨ x.precedence ≤ e.precedence)
                ∧ ∀ x ∈ b, x.onWire = true ∨ x.precedence < e.precedence)
          ∧ s.offerFrame f = { s with
              queue := (s.offerFrame f).queue, counters := (s.offerFrame f).counters
              records := (s.offerFrame f).records }))
    ∧ (∀ (f : Frame) (q : List Queued), q.Pairwise (fun a b => a.precedence ≤ b.precedence) →
      ∃ a b, q = a ++ b ∧ enqueue f q = a ++ ⟨f, false⟩ :: b
        ∧ (∀ e ∈ a, e.precedence ≤ f.payload.precedence) ∧ ∀ e ∈ b, f.payload.precedence < e.precedence)
    ∧ ∀ p : Payload, p.precedence = (match p with
      | .claim _ _ | .take _ => 2
      | .lineState _ _ _ => 3
      | .delivered _ | .returned _ _ | .withdrawn _ _ | .refused _ _ | .bsent _ _ _ => 4
      | .announce _ => 6
      | .cardStatus _ | .lineStatus _ => 7)

/-! ## Frames on the wire -/

/-- The bits of the frame that brings a command, at any precedence, are heard as that command: every operand of
every kind is carried and read back (R168, R186, R187, chapter 12). -/
def Obligations.HeardFrameIsCommand : Prop :=
  ∀ (i : Instr) (precedence : Nat) (bits : List Bool), i.wellFormed = true →
    commandBits precedence i = some bits → heard bits = i

/-- The card's own frames are heard as what they are: CLAIM, TAKE and ANNOUNCE as the commands they bring, any
other kind as a frame that is ignored, each with a length listed for its kind (R169, R186). -/
def Obligations.CardFramesAreHeard : Prop :=
  ∀ (own : Station) (f : Frame), own ≠ 63 →
    lengthListed f.payload.kind f.payload.bytes.length = true
      ∧ heard (f.bits own) = (match f.payload with
        | .claim key grade => .claim ⟨own, f.dest⟩ key grade
        | .take key => .takeReceived ⟨own, f.dest⟩ key
        | .announce a => .announce ⟨own, f.dest⟩ a
        | p => .ignoredFrame ⟨own, f.dest⟩ p.kind)

/-! ## Laws every step keeps -/

/-- Every step keeps the transmit queue at 24 frames or fewer, in order of precedence, with at most one frame on
the wire (R172, R166). -/
def Obligations.StepKeepsQueue : Prop :=
  ∀ s t : State, s.queueBounded → s.queueOrdered → step s = .next t → t.queueBounded ∧ t.queueOrdered

/-- After every step a report waits only while the queue holds more than 16 frames (R144), and every step keeps
a record behind each report: one in REPORTING, or a bulletin's (R143, R145). Every step keeps a record in
CLAIMING a TELEX record (R134), the premise of the second clause. -/
def Obligations.StepHandsReports : Prop :=
  (∀ s t : State, s.reportsHanded → step s = .next t → t.reportsHanded)
    ∧ (∀ s t : State, s.claimingTelex → s.shipsOnce → s.messagesPlaced → s.reportsOwned →
      step s = .next t → t.reportsOwned)
    ∧ ∀ s t : State, s.claimingTelex → step s = .next t → t.claimingTelex

/-- Every step keeps each of the 2048 pages in exactly one place, and no page with a record in REPORTING (R135,
R137). -/
def Obligations.StepKeepsPages : Prop :=
  ∀ s t : State, s.reportingEmpty → s.pagesConserved → step s = .next t →
    t.reportingEmpty ∧ t.pagesConserved

/-- Every step keeps the text memory in its canonical form. The form is the model's own (log 3). -/
def Obligations.StepKeepsText : Prop :=
  ∀ s t : State, s.textCanonical → step s = .next t → t.textCanonical

/-- Every counter holds 0–65535: an increase adds 1 below 65535 and leaves 65535, no step takes a counter out of
the range or lowers it but PIN_RESET and RESTART, and these set every counter to 0 (R131). -/
def Obligations.CountersSaturate : Prop :=
  (∀ c, c < 65535 → bump c = c + 1) ∧ bump 65535 = 65535
    ∧ (∀ s t : State, s.countersBounded → step s = .next t → t.countersBounded)
    ∧ (∀ (c : Instr) (s t : State), (∀ pins, c ≠ .pinReset pins) → (∀ h, c ≠ .restart h) →
      exec c s = .next t → s.counters.le t.counters ∧ ∀ l, (s.line l).counters.le (t.line l).counters)
    ∧ (∀ (pins : Fin 64) (s t : State), exec (.pinReset pins) s = .next t →
      t.counters = .zero ∧ ∀ l, (t.line l).counters = .zero)
    ∧ (∀ (h : Header) (s t : State), s.reception .restart h h.source true = .taken →
      s.queue.length < 24 → exec (.restart h) s = .next t →
      t.counters = .zero ∧ ∀ l, (t.line l).counters = .zero)

/-- Every step keeps a key in at most one record, and at most 8 claim windows open (R132, R156). -/
def Obligations.StepKeepsKeysAndClaims : Prop :=
  ∀ s t : State, s.keysDistinct → s.claimsBounded → step s = .next t →
    t.keysDistinct ∧ t.claimsBounded

/-- Every step keeps a ship in at most one entry of the card, a circuit's ship on the circuit's own line, and
the entries within the pool of 32 (R25); and every telex message of an entry in a record that names the entry's
line and ship, a circuit's current message among its entry's, and a CLAIMING record for every claim window
(R133, R149, R156). Every step keeps one part at most of a line's bulletin queues on air (R71). -/
def Obligations.StepKeepsShips : Prop :=
  (∀ s t : State, s.shipsOnce → step s = .next t → t.shipsOnce)
    ∧ (∀ s t : State, s.shipsOnce → s.messagesPlaced → step s = .next t → t.messagesPlaced)
    ∧ ∀ s t : State, s.onePartOnAir → step s = .next t → t.onePartOnAir

/-- Every step keeps the configuration and the fields of every line within their ranges: filler-run and
keyup-count (R12, R11), the window's last-est, deferred-cycles and notice-step (R94), turn-cycles (R104), each
field with a range of the circuit record (R23), silence-count below PARK-LIMIT (R53), linger-count up to LINGER
(R40), and attempts and retry-hold of the entries (R25) (R178, R63). -/
def Obligations.StepKeepsLinesInRange : Prop :=
  ∀ s t : State, s.linesInRange → step s = .next t → t.linesInRange

/-- A step that adds no band to the silenced set keeps every line of a silenced band SILENT, STOPPED or
DISABLED: no command but a new silencing makes an exception (R13). -/
def Obligations.StepKeepsSilence : Prop :=
  ∀ s t : State, s.silenceHeld → step s = .next t →
    (∀ b < 8, t.silenced.getLsbD b = true → s.silenced.getLsbD b = true) → t.silenceHeld

/-! ## The interleaver -/

/-- The choice of an ACTIVE line, after the end tests of a T turn (R114), is the first source of R105 that
applies: the operation in progress, a forced keep, the withdraw cut, a cut-in with its preparation, the unit in
progress, the open window with its turns, reads and opportunistic keep, circuit traffic, a call, a free
bulletin, filler (R107 to R113, R115 to R120, R51, R55, R57, R59, R60). The phase pointer moves by one at a
read, and stands at every other choice. The silence-count step of a parked circuit, and its loss at PARK-LIMIT
(R53, R54). The model's readings: an abandoned free part stands first (log 17), silence-count stands at an
unpark without traffic (log 25), and a new circuit's clear-cause is ORDINARY (log 35). -/
def Obligations.ActiveLineServesFirstSource : Prop :=
  (∀ (l : LineId) (s : State),
    let x := s.line l
    let v := s.endTests l
    let ends := x.circuit = none ∨ x.window.state ≠ .isOpen
      ∨ ∃ c, x.circuit = some c ∧ (c.state = .linked ∨ c.state = .parked)
        ∧ ((s.lineConfig l).turn ≤ x.arbiter.turnCycles ∨ ¬ hasTraffic s l c)
    (x.arbiter.turn = .telex → ends → v.line l = { x with arbiter := { x.arbiter with
        turn := .noTurn, turnCycles := 0, bBegun := false } }
        ∧ v = { s with lines := v.lines } ∧ ∀ m, m ≠ l → v.line m = s.line m)
      ∧ (x.arbiter.turn ≠ .telex ∨ ¬ ends → v = s))
    ∧ (∀ (l : LineId) (s : State),
      let v := s.endTests l
      let x := v.line l
      let config := s.lineConfig l
      let p := s.chooseCycle l
      let y := p.1.line l
      let cutInReady := ∃ i ∈ x.cutInQueue, mayBeSent v l i
      let serves := fun c : Circuit => c.state = .linked ∨ c.state = .parked
      -- the circuit's part in sources 1, 2 and 3
      let operates := fun c : Circuit => c.state = .aligning ∨ c.state = .identifying
        ∨ c.state = .rephasing ∨ c.state = .clearing ∨ (c.state = .calling ∧ ¬ cutInReady)
      let keeps := fun c : Circuit => c.state = .parked ∧ config.parkLimit - 4 ≤ c.silenceCount
      let cuts := fun c : Circuit => c.state = .linked ∧ cutWaits v c
      -- a read of the interleave table moves the phase pointer, and nothing else does
      let reads := ∃ c, x.circuit = some c ∧ serves c ∧ ¬ keeps c ∧ ¬ cuts c ∧ hasTraffic v l c
        ∧ v.bulletinOnAir l = none ∧ ¬ cutInReady ∧ x.window.noticeStep = 0 ∧ x.window.state = .isOpen
        ∧ x.arbiter.turn = .noTurn
        ∧ ¬ (c.state = .parked ∧ config.parkLimit / 2 ≤ c.silenceCount
          ∧ c.silenceCount < config.parkLimit - 4 ∧ x.arbiter.keepOffered = false)
      (reads → y.arbiter.phasePointer = x.arbiter.phasePointer + 1)
        ∧ (¬ reads → y.arbiter.phasePointer = x.arbiter.phasePointer)
        ∧ (∀ c, x.circuit = some c → operates c →
        (c.state = .calling → p.2 = .call c.ship
            ∧ y.circuit = some { c with callCycles := c.callCycles + 1 })
          ∧ (c.state = .aligning → p.2 = .align ∧ y.circuit = some c)
          ∧ (c.state = .identifying → p.2 = .ident
            ∧ y.circuit = some { c with identTries := c.identTries + 1 })
          ∧ (c.state = .rephasing → c.rephaseCycles < 2 → p.2 = .rephase
            ∧ y.circuit = some { c with rephaseCycles := c.rephaseCycles + 1 })
          ∧ (c.state = .rephasing → 2 ≤ c.rephaseCycles → p.2 = .align ∧ y.circuit = some c)
          ∧ (c.state = .clearing → p.2 = .clear
            ∧ y.circuit = some { c with clearCycles := c.clearCycles + 1 })
          ∧ (x.arbiter.turn = .telex → y.arbiter
            = { x.arbiter with turnCycles := min config.turn (x.arbiter.turnCycles + 1) })
          ∧ (x.arbiter.turn ≠ .telex → y.arbiter = x.arbiter))
        ∧ (∀ c, x.circuit = some c → keeps c → p.2 = .keep ∧ p.1.records = v.records
          ∧ y = { x with fillerRun := 0
                         counters := { x.counters with keepsSent := bump x.counters.keepsSent } })
        ∧ (∀ c, x.circuit = some c → cuts c → cutHanded v l c p)
        ∧ ((∀ c, x.circuit = some c → ¬ operates c ∧ ¬ keeps c ∧ ¬ cuts c) →
          (∀ i, v.bulletinOnAir l = some i → v.isMarked i = true →
            p.2 = .bbroken ∧ p.1.part? i l = none)
          ∧ ((∀ i, v.bulletinOnAir l = some i → v.isMarked i = false) →
            -- source 4, a cut-in
            (∀ i, v.cutInOnAir l = some i → sendingGoesOn v l i p)
            ∧ (v.cutInOnAir l = none → ∀ i, firstWith (mayBeSent v l) x.cutInQueue i →
              y.arbiter = ⟨x.arbiter.phasePointer, .noTurn, 0, false, false⟩
                ∧ (∀ j, v.unitOnAir l = some j → p.2 = .bbroken ∧ y.circuit = x.circuit
                  ∧ (∀ q, v.part? j l = some q → p.1.part? j l
                    = some { q with state := .queued, formStep := 0, passMark := false })
                  ∧ (j ∈ x.freeQueue → y.freeQueue = j :: x.freeQueue.erase j))
                ∧ (v.unitOnAir l = none → y.window = { x.window with noticeStep := 0 }
                  ∧ ((∀ c, x.circuit = some c → c.state = .calling ∨ c.state = .parked) →
                    sendingBegun v l i p ∧ ∀ c, x.circuit = some c →
                      (c.state = .calling → y.circuit = none ∧ y.callList = x.callList)
                        ∧ (c.state = .parked → y.circuit = some c))
                  ∧ ∀ c, x.circuit = some c → c.state = .linked →
                    (¬ hasTraffic v l c → clearHanded l c p)
                      ∧ (hasTraffic v l c → p.2 = .park
                        ∧ y.circuit = some { c with state := .parked, silenceCount := 0 })))
            ∧ (v.cutInOnAir l = none → ¬ cutInReady →
              -- source 5, the unit in progress
              (∀ i, v.unitOnAir l = some i → sendingGoesOn v l i p)
              ∧ (v.unitOnAir l = none → x.window.noticeStep ≠ 0 → p.2 = .notice
                ∧ y.window = { x.window with noticeStep := x.window.noticeStep + 1 })
              ∧ (v.unitOnAir l = none → x.window.noticeStep = 0 →
                let spent := (∀ i ∈ x.windowQueue, ¬ readByPass v l i) ∧ x.window.unitsEnded = true
                let closed := y.window = { x.window with state := .closed, unitsEnded := false }
                let isOpen := x.window.state = .isOpen
                let turn := x.arbiter.turn
                -- source 6, the open window
                (isOpen → turn = .bulletin → x.arbiter.bBegun = false →
                  (¬ spent → unitBegun v l p ∧ y.arbiter = { x.arbiter with bBegun := true })
                    ∧ (spent → closed ∧ y.arbiter.turn = .noTurn
                      ∧ ∀ c, x.circuit = some c → serves c → trafficHanded v l c p))
                ∧ (isOpen → turn = .noTurn → x.circuit = none →
                  y.arbiter = { x.arbiter with keepOffered := false } ∧ (¬ spent → unitBegun v l p)
                    ∧ (spent → closed))
                ∧ (∀ c, isOpen → turn = .noTurn → x.circuit = some c → serves c →
                  let due := c.state = .parked ∧ config.parkLimit / 2 ≤ c.silenceCount
                    ∧ c.silenceCount < config.parkLimit - 4 ∧ x.arbiter.keepOffered = false
                  let entry := config.table[x.arbiter.phasePointer]
                  let read : Arbiter := { x.arbiter with
                    phasePointer := x.arbiter.phasePointer + 1, keepOffered := false }
                  (¬ hasTraffic v l c → ¬ cutWaits v c → y.arbiter = x.arbiter ∧ clearHanded l
                      { c with lingerCount := if c.state = .parked then 0 else c.lingerCount } p)
                    ∧ (hasTraffic v l c → due → p.2 = .keep ∧ y.circuit = some c
                      ∧ y.arbiter = { x.arbiter with keepOffered := true })
                    ∧ (hasTraffic v l c → ¬ due → entry = .telex → trafficHanded v l c p
                      ∧ y.arbiter = { read with turn := .telex, turnCycles := min config.turn 1 })
                    ∧ (hasTraffic v l c → ¬ due → entry = .bulletin →
                      (spent → closed ∧ y.arbiter = read ∧ trafficHanded v l c p)
                        ∧ (¬ spent → c.state = .linked → p.2 = .park ∧ y.window = x.window
                          ∧ y.circuit = some { c with state := .parked, silenceCount := 0 }
                          ∧ y.arbiter = { read with turn := .bulletin, bBegun := false })
                        ∧ (¬ spent → c.state = .parked → unitBegun v l p
                          ∧ y.arbiter = { read with turn := .bulletin, bBegun := true })))
                -- source 7, circuit traffic
                ∧ (∀ c, ¬ isOpen ∨ turn = .telex → x.circuit = some c → serves c →
                  let linger := if c.state = .parked then 0 else c.lingerCount
                  trafficHanded v l c p
                    ∧ (turn = .telex → y.arbiter.turnCycles
                      = min config.turn (x.arbiter.turnCycles + 1))
                    ∧ (¬ isOpen → ¬ hasTraffic v l c → ¬ cutWaits v c →
                      (linger = config.linger → clearHanded l { c with lingerCount := linger } p)
                        ∧ (linger ≠ config.linger → p.2 = .idleblock ∧ y.circuit
                          = some { c with state := .linked, lingerCount := linger + 1 })))
                -- sources 8, 9 and 10: a call, a free bulletin, filler
                ∧ (¬ isOpen → x.circuit = none →
                  let callable := fun e : Entry => e.retryHold = 0
                    ∧ ∃ i ∈ e.messages, ∃ r, v.record i = some r ∧ r.state = .ready
                  (∀ a e b, x.callList = a ++ e :: b → callable e → (∀ e' ∈ a, ¬ callable e') →
                    p.2 = .call e.ship ∧ y.circuit = some (Circuit.newCall e.ship)
                      ∧ y.callList = x.callList.map fun e' =>
                        if e'.ship = e.ship then { e' with recalled := false } else e')
                  ∧ ((∀ e ∈ x.callList, ¬ callable e) →
                    (∀ i, firstWith (mayBeSent v l) x.freeQueue i → sendingBegun v l i p)
                    ∧ ((∀ i ∈ x.freeQueue, ¬ mayBeSent v l i) →
                      (x.fillerRun < 8 → p.2 = .filler
                          ∧ y = { x with fillerRun := x.fillerRun + 1 })
                        ∧ (8 ≤ x.fillerRun → p.2 = .unkeyed
                          ∧ y = { x with fillerRun := 0, mode := .rest })))))))))
    ∧ ∀ (l : LineId) (s : State) (c : Circuit) (ended : Option Cycle) (o : Option Outcome),
      (s.line l).circuit = some c →
      let t := s.silenceStep l ended o
      let answered := (ended = some .park ∨ ended = some .keep) ∧ o = some .good
      (c.state ≠ .parked → t = s)
        ∧ (c.state = .parked → answered →
          t.line l = { s.line l with circuit := some { c with silenceCount := 0 } })
        ∧ (c.state = .parked → ¬ answered → c.silenceCount + 1 < (s.lineConfig l).parkLimit →
          t.line l = { s.line l with circuit := some { c with silenceCount := c.silenceCount + 1 } })
        ∧ (c.state = .parked → ¬ answered → (s.lineConfig l).parkLimit ≤ c.silenceCount + 1 →
          circuitLost s t l c ∧ (t.line l).counters = { (s.line l).counters with
            circuitsLost := bump (s.line l).counters.circuitsLost })
end

