-- ==== Sys2Proof/Laws/State.lean ====
section
/-! SUPPORT. What each update of the state leaves unchanged, field by field, and what reading gives after
writing: a line, a record, a counter. -/

namespace Sys2Proof.Machine

variable (s : State)

/-! ## Fields an update leaves unchanged -/

@[simp] theorem State.setLine_frame (l : LineId) (x : Line) :
    (s.setLine l x).pending = s.pending ∧ (s.setLine l x).phase = s.phase
      ∧ (s.setLine l x).strap = s.strap ∧ (s.setLine l x).fault = s.fault
      ∧ (s.setLine l x).known = s.known ∧ (s.setLine l x).startInterval = s.startInterval
      ∧ (s.setLine l x).config = s.config ∧ (s.setLine l x).silenced = s.silenced
      ∧ (s.setLine l x).minute = s.minute ∧ (s.setLine l x).second = s.second
      ∧ (s.setLine l x).timeValid = s.timeValid ∧ (s.setLine l x).marks = s.marks
      ∧ (s.setLine l x).records = s.records ∧ (s.setLine l x).freePages = s.freePages
      ∧ (s.setLine l x).text = s.text ∧ (s.setLine l x).reports = s.reports
      ∧ (s.setLine l x).claims = s.claims ∧ (s.setLine l x).queue = s.queue
      ∧ (s.setLine l x).counters = s.counters :=
  ⟨rfl, rfl, rfl, rfl, rfl, rfl, rfl, rfl, rfl, rfl, rfl, rfl, rfl, rfl, rfl, rfl, rfl, rfl, rfl⟩

@[simp] theorem State.modLine_frame (l : LineId) (f : Line → Line) :
    (s.modLine l f).pending = s.pending ∧ (s.modLine l f).phase = s.phase
      ∧ (s.modLine l f).strap = s.strap ∧ (s.modLine l f).fault = s.fault
      ∧ (s.modLine l f).known = s.known ∧ (s.modLine l f).startInterval = s.startInterval
      ∧ (s.modLine l f).config = s.config ∧ (s.modLine l f).silenced = s.silenced
      ∧ (s.modLine l f).minute = s.minute ∧ (s.modLine l f).second = s.second
      ∧ (s.modLine l f).timeValid = s.timeValid ∧ (s.modLine l f).marks = s.marks
      ∧ (s.modLine l f).records = s.records ∧ (s.modLine l f).freePages = s.freePages
      ∧ (s.modLine l f).text = s.text ∧ (s.modLine l f).reports = s.reports
      ∧ (s.modLine l f).claims = s.claims ∧ (s.modLine l f).queue = s.queue
      ∧ (s.modLine l f).counters = s.counters :=
  ⟨rfl, rfl, rfl, rfl, rfl, rfl, rfl, rfl, rfl, rfl, rfl, rfl, rfl, rfl, rfl, rfl, rfl, rfl, rfl⟩

@[simp] theorem State.mapLines_frame (f : LineId → Line → Line) :
    (s.mapLines f).pending = s.pending ∧ (s.mapLines f).phase = s.phase
      ∧ (s.mapLines f).strap = s.strap ∧ (s.mapLines f).fault = s.fault
      ∧ (s.mapLines f).known = s.known ∧ (s.mapLines f).startInterval = s.startInterval
      ∧ (s.mapLines f).config = s.config ∧ (s.mapLines f).silenced = s.silenced
      ∧ (s.mapLines f).minute = s.minute ∧ (s.mapLines f).second = s.second
      ∧ (s.mapLines f).timeValid = s.timeValid ∧ (s.mapLines f).marks = s.marks
      ∧ (s.mapLines f).records = s.records ∧ (s.mapLines f).freePages = s.freePages
      ∧ (s.mapLines f).text = s.text ∧ (s.mapLines f).reports = s.reports
      ∧ (s.mapLines f).claims = s.claims ∧ (s.mapLines f).queue = s.queue
      ∧ (s.mapLines f).counters = s.counters :=
  ⟨rfl, rfl, rfl, rfl, rfl, rfl, rfl, rfl, rfl, rfl, rfl, rfl, rfl, rfl, rfl, rfl, rfl, rfl, rfl⟩

@[simp] theorem State.modCounters_frame (l : LineId) (f : LineCounters → LineCounters) :
    (s.modCounters l f).pending = s.pending ∧ (s.modCounters l f).phase = s.phase
      ∧ (s.modCounters l f).strap = s.strap ∧ (s.modCounters l f).fault = s.fault
      ∧ (s.modCounters l f).known = s.known ∧ (s.modCounters l f).startInterval = s.startInterval
      ∧ (s.modCounters l f).config = s.config ∧ (s.modCounters l f).silenced = s.silenced
      ∧ (s.modCounters l f).minute = s.minute ∧ (s.modCounters l f).second = s.second
      ∧ (s.modCounters l f).timeValid = s.timeValid ∧ (s.modCounters l f).marks = s.marks
      ∧ (s.modCounters l f).records = s.records ∧ (s.modCounters l f).freePages = s.freePages
      ∧ (s.modCounters l f).text = s.text ∧ (s.modCounters l f).reports = s.reports
      ∧ (s.modCounters l f).claims = s.claims ∧ (s.modCounters l f).queue = s.queue
      ∧ (s.modCounters l f).counters = s.counters :=
  ⟨rfl, rfl, rfl, rfl, rfl, rfl, rfl, rfl, rfl, rfl, rfl, rfl, rfl, rfl, rfl, rfl, rfl, rfl, rfl⟩

@[simp] theorem State.setCircuit_frame (l : LineId) (c : Option Circuit) :
    (s.setCircuit l c).pending = s.pending ∧ (s.setCircuit l c).phase = s.phase
      ∧ (s.setCircuit l c).strap = s.strap ∧ (s.setCircuit l c).fault = s.fault
      ∧ (s.setCircuit l c).known = s.known ∧ (s.setCircuit l c).startInterval = s.startInterval
      ∧ (s.setCircuit l c).config = s.config ∧ (s.setCircuit l c).silenced = s.silenced
      ∧ (s.setCircuit l c).minute = s.minute ∧ (s.setCircuit l c).second = s.second
      ∧ (s.setCircuit l c).timeValid = s.timeValid ∧ (s.setCircuit l c).marks = s.marks
      ∧ (s.setCircuit l c).records = s.records ∧ (s.setCircuit l c).freePages = s.freePages
      ∧ (s.setCircuit l c).text = s.text ∧ (s.setCircuit l c).reports = s.reports
      ∧ (s.setCircuit l c).claims = s.claims ∧ (s.setCircuit l c).queue = s.queue
      ∧ (s.setCircuit l c).counters = s.counters :=
  ⟨rfl, rfl, rfl, rfl, rfl, rfl, rfl, rfl, rfl, rfl, rfl, rfl, rfl, rfl, rfl, rfl, rfl, rfl, rfl⟩

@[simp] theorem State.modWindow_frame (l : LineId) (f : Window → Window) :
    (s.modWindow l f).pending = s.pending ∧ (s.modWindow l f).phase = s.phase
      ∧ (s.modWindow l f).strap = s.strap ∧ (s.modWindow l f).fault = s.fault
      ∧ (s.modWindow l f).known = s.known ∧ (s.modWindow l f).startInterval = s.startInterval
      ∧ (s.modWindow l f).config = s.config ∧ (s.modWindow l f).silenced = s.silenced
      ∧ (s.modWindow l f).minute = s.minute ∧ (s.modWindow l f).second = s.second
      ∧ (s.modWindow l f).timeValid = s.timeValid ∧ (s.modWindow l f).marks = s.marks
      ∧ (s.modWindow l f).records = s.records ∧ (s.modWindow l f).freePages = s.freePages
      ∧ (s.modWindow l f).text = s.text ∧ (s.modWindow l f).reports = s.reports
      ∧ (s.modWindow l f).claims = s.claims ∧ (s.modWindow l f).queue = s.queue
      ∧ (s.modWindow l f).counters = s.counters :=
  ⟨rfl, rfl, rfl, rfl, rfl, rfl, rfl, rfl, rfl, rfl, rfl, rfl, rfl, rfl, rfl, rfl, rfl, rfl, rfl⟩

@[simp] theorem State.modArbiter_frame (l : LineId) (f : Arbiter → Arbiter) :
    (s.modArbiter l f).pending = s.pending ∧ (s.modArbiter l f).phase = s.phase
      ∧ (s.modArbiter l f).strap = s.strap ∧ (s.modArbiter l f).fault = s.fault
      ∧ (s.modArbiter l f).known = s.known ∧ (s.modArbiter l f).startInterval = s.startInterval
      ∧ (s.modArbiter l f).config = s.config ∧ (s.modArbiter l f).silenced = s.silenced
      ∧ (s.modArbiter l f).minute = s.minute ∧ (s.modArbiter l f).second = s.second
      ∧ (s.modArbiter l f).timeValid = s.timeValid ∧ (s.modArbiter l f).marks = s.marks
      ∧ (s.modArbiter l f).records = s.records ∧ (s.modArbiter l f).freePages = s.freePages
      ∧ (s.modArbiter l f).text = s.text ∧ (s.modArbiter l f).reports = s.reports
      ∧ (s.modArbiter l f).claims = s.claims ∧ (s.modArbiter l f).queue = s.queue
      ∧ (s.modArbiter l f).counters = s.counters :=
  ⟨rfl, rfl, rfl, rfl, rfl, rfl, rfl, rfl, rfl, rfl, rfl, rfl, rfl, rfl, rfl, rfl, rfl, rfl, rfl⟩

@[simp] theorem State.setRecord_frame (i : Slot) (r : Option Record) :
    (s.setRecord i r).pending = s.pending ∧ (s.setRecord i r).phase = s.phase
      ∧ (s.setRecord i r).strap = s.strap ∧ (s.setRecord i r).fault = s.fault
      ∧ (s.setRecord i r).known = s.known ∧ (s.setRecord i r).startInterval = s.startInterval
      ∧ (s.setRecord i r).config = s.config ∧ (s.setRecord i r).silenced = s.silenced
      ∧ (s.setRecord i r).minute = s.minute ∧ (s.setRecord i r).second = s.second
      ∧ (s.setRecord i r).timeValid = s.timeValid ∧ (s.setRecord i r).marks = s.marks
      ∧ (s.setRecord i r).freePages = s.freePages ∧ (s.setRecord i r).text = s.text
      ∧ (s.setRecord i r).reports = s.reports ∧ (s.setRecord i r).claims = s.claims
      ∧ (s.setRecord i r).queue = s.queue ∧ (s.setRecord i r).counters = s.counters
      ∧ (s.setRecord i r).lines = s.lines :=
  ⟨rfl, rfl, rfl, rfl, rfl, rfl, rfl, rfl, rfl, rfl, rfl, rfl, rfl, rfl, rfl, rfl, rfl, rfl, rfl⟩

@[simp] theorem State.modRecord_frame (i : Slot) (f : Record → Record) :
    (s.modRecord i f).pending = s.pending ∧ (s.modRecord i f).phase = s.phase
      ∧ (s.modRecord i f).strap = s.strap ∧ (s.modRecord i f).fault = s.fault
      ∧ (s.modRecord i f).known = s.known ∧ (s.modRecord i f).startInterval = s.startInterval
      ∧ (s.modRecord i f).config = s.config ∧ (s.modRecord i f).silenced = s.silenced
      ∧ (s.modRecord i f).minute = s.minute ∧ (s.modRecord i f).second = s.second
      ∧ (s.modRecord i f).timeValid = s.timeValid ∧ (s.modRecord i f).marks = s.marks
      ∧ (s.modRecord i f).freePages = s.freePages ∧ (s.modRecord i f).text = s.text
      ∧ (s.modRecord i f).reports = s.reports ∧ (s.modRecord i f).claims = s.claims
      ∧ (s.modRecord i f).queue = s.queue ∧ (s.modRecord i f).counters = s.counters
      ∧ (s.modRecord i f).lines = s.lines :=
  ⟨rfl, rfl, rfl, rfl, rfl, rfl, rfl, rfl, rfl, rfl, rfl, rfl, rfl, rfl, rfl, rfl, rfl, rfl, rfl⟩

@[simp] theorem State.addReport_frame (i : Slot) (item : ReportItem) :
    (s.addReport i item).pending = s.pending ∧ (s.addReport i item).phase = s.phase
      ∧ (s.addReport i item).strap = s.strap ∧ (s.addReport i item).fault = s.fault
      ∧ (s.addReport i item).known = s.known ∧ (s.addReport i item).startInterval = s.startInterval
      ∧ (s.addReport i item).config = s.config ∧ (s.addReport i item).silenced = s.silenced
      ∧ (s.addReport i item).minute = s.minute ∧ (s.addReport i item).second = s.second
      ∧ (s.addReport i item).timeValid = s.timeValid ∧ (s.addReport i item).marks = s.marks
      ∧ (s.addReport i item).records = s.records ∧ (s.addReport i item).freePages = s.freePages
      ∧ (s.addReport i item).text = s.text ∧ (s.addReport i item).claims = s.claims
      ∧ (s.addReport i item).queue = s.queue ∧ (s.addReport i item).counters = s.counters
      ∧ (s.addReport i item).lines = s.lines :=
  ⟨rfl, rfl, rfl, rfl, rfl, rfl, rfl, rfl, rfl, rfl, rfl, rfl, rfl, rfl, rfl, rfl, rfl, rfl, rfl⟩

@[simp] theorem State.discardBsent_frame (i : Slot) (l : LineId) :
    (s.discardBsent i l).pending = s.pending ∧ (s.discardBsent i l).phase = s.phase
      ∧ (s.discardBsent i l).strap = s.strap ∧ (s.discardBsent i l).fault = s.fault
      ∧ (s.discardBsent i l).known = s.known ∧ (s.discardBsent i l).startInterval = s.startInterval
      ∧ (s.discardBsent i l).config = s.config ∧ (s.discardBsent i l).silenced = s.silenced
      ∧ (s.discardBsent i l).minute = s.minute ∧ (s.discardBsent i l).second = s.second
      ∧ (s.discardBsent i l).timeValid = s.timeValid ∧ (s.discardBsent i l).marks = s.marks
      ∧ (s.discardBsent i l).records = s.records ∧ (s.discardBsent i l).freePages = s.freePages
      ∧ (s.discardBsent i l).text = s.text ∧ (s.discardBsent i l).claims = s.claims
      ∧ (s.discardBsent i l).queue = s.queue ∧ (s.discardBsent i l).counters = s.counters
      ∧ (s.discardBsent i l).lines = s.lines :=
  ⟨rfl, rfl, rfl, rfl, rfl, rfl, rfl, rfl, rfl, rfl, rfl, rfl, rfl, rfl, rfl, rfl, rfl, rfl, rfl⟩

@[simp] theorem State.discardBsents_frame (i : Slot) :
    (s.discardBsents i).pending = s.pending ∧ (s.discardBsents i).phase = s.phase
      ∧ (s.discardBsents i).strap = s.strap ∧ (s.discardBsents i).fault = s.fault
      ∧ (s.discardBsents i).known = s.known ∧ (s.discardBsents i).startInterval = s.startInterval
      ∧ (s.discardBsents i).config = s.config ∧ (s.discardBsents i).silenced = s.silenced
      ∧ (s.discardBsents i).minute = s.minute ∧ (s.discardBsents i).second = s.second
      ∧ (s.discardBsents i).timeValid = s.timeValid ∧ (s.discardBsents i).marks = s.marks
      ∧ (s.discardBsents i).records = s.records ∧ (s.discardBsents i).freePages = s.freePages
      ∧ (s.discardBsents i).text = s.text ∧ (s.discardBsents i).claims = s.claims
      ∧ (s.discardBsents i).queue = s.queue ∧ (s.discardBsents i).counters = s.counters
      ∧ (s.discardBsents i).lines = s.lines :=
  ⟨rfl, rfl, rfl, rfl, rfl, rfl, rfl, rfl, rfl, rfl, rfl, rfl, rfl, rfl, rfl, rfl, rfl, rfl, rfl⟩

@[simp] theorem State.removeClaims_frame (k : Key) :
    (s.removeClaims k).pending = s.pending ∧ (s.removeClaims k).phase = s.phase
      ∧ (s.removeClaims k).strap = s.strap ∧ (s.removeClaims k).fault = s.fault
      ∧ (s.removeClaims k).known = s.known ∧ (s.removeClaims k).startInterval = s.startInterval
      ∧ (s.removeClaims k).config = s.config ∧ (s.removeClaims k).silenced = s.silenced
      ∧ (s.removeClaims k).minute = s.minute ∧ (s.removeClaims k).second = s.second
      ∧ (s.removeClaims k).timeValid = s.timeValid ∧ (s.removeClaims k).marks = s.marks
      ∧ (s.removeClaims k).records = s.records ∧ (s.removeClaims k).freePages = s.freePages
      ∧ (s.removeClaims k).text = s.text ∧ (s.removeClaims k).reports = s.reports
      ∧ (s.removeClaims k).claims = s.claims ∧ (s.removeClaims k).counters = s.counters
      ∧ (s.removeClaims k).lines = s.lines :=
  ⟨rfl, rfl, rfl, rfl, rfl, rfl, rfl, rfl, rfl, rfl, rfl, rfl, rfl, rfl, rfl, rfl, rfl, rfl, rfl⟩

@[simp] theorem State.bumpLost_frame :
    s.bumpLost.pending = s.pending ∧ s.bumpLost.phase = s.phase ∧ s.bumpLost.strap = s.strap
      ∧ s.bumpLost.fault = s.fault ∧ s.bumpLost.known = s.known
      ∧ s.bumpLost.startInterval = s.startInterval ∧ s.bumpLost.config = s.config
      ∧ s.bumpLost.silenced = s.silenced ∧ s.bumpLost.minute = s.minute
      ∧ s.bumpLost.second = s.second ∧ s.bumpLost.timeValid = s.timeValid
      ∧ s.bumpLost.marks = s.marks ∧ s.bumpLost.records = s.records
      ∧ s.bumpLost.freePages = s.freePages ∧ s.bumpLost.text = s.text
      ∧ s.bumpLost.reports = s.reports ∧ s.bumpLost.claims = s.claims ∧ s.bumpLost.queue = s.queue
      ∧ s.bumpLost.lines = s.lines :=
  ⟨rfl, rfl, rfl, rfl, rfl, rfl, rfl, rfl, rfl, rfl, rfl, rfl, rfl, rfl, rfl, rfl, rfl, rfl, rfl⟩

@[simp] theorem State.bumpDiscarded_frame :
    s.bumpDiscarded.pending = s.pending ∧ s.bumpDiscarded.phase = s.phase
      ∧ s.bumpDiscarded.strap = s.strap ∧ s.bumpDiscarded.fault = s.fault
      ∧ s.bumpDiscarded.known = s.known ∧ s.bumpDiscarded.startInterval = s.startInterval
      ∧ s.bumpDiscarded.config = s.config ∧ s.bumpDiscarded.silenced = s.silenced
      ∧ s.bumpDiscarded.minute = s.minute ∧ s.bumpDiscarded.second = s.second
      ∧ s.bumpDiscarded.timeValid = s.timeValid ∧ s.bumpDiscarded.marks = s.marks
      ∧ s.bumpDiscarded.records = s.records ∧ s.bumpDiscarded.freePages = s.freePages
      ∧ s.bumpDiscarded.text = s.text ∧ s.bumpDiscarded.reports = s.reports
      ∧ s.bumpDiscarded.claims = s.claims ∧ s.bumpDiscarded.queue = s.queue
      ∧ s.bumpDiscarded.lines = s.lines :=
  ⟨rfl, rfl, rfl, rfl, rfl, rfl, rfl, rfl, rfl, rfl, rfl, rfl, rfl, rfl, rfl, rfl, rfl, rfl, rfl⟩

@[simp] theorem State.bumpBad_frame :
    s.bumpBad.pending = s.pending ∧ s.bumpBad.phase = s.phase ∧ s.bumpBad.strap = s.strap
      ∧ s.bumpBad.fault = s.fault ∧ s.bumpBad.known = s.known
      ∧ s.bumpBad.startInterval = s.startInterval ∧ s.bumpBad.config = s.config
      ∧ s.bumpBad.silenced = s.silenced ∧ s.bumpBad.minute = s.minute ∧ s.bumpBad.second = s.second
      ∧ s.bumpBad.timeValid = s.timeValid ∧ s.bumpBad.marks = s.marks
      ∧ s.bumpBad.records = s.records ∧ s.bumpBad.freePages = s.freePages ∧ s.bumpBad.text = s.text
      ∧ s.bumpBad.reports = s.reports ∧ s.bumpBad.claims = s.claims ∧ s.bumpBad.queue = s.queue
      ∧ s.bumpBad.lines = s.lines :=
  ⟨rfl, rfl, rfl, rfl, rfl, rfl, rfl, rfl, rfl, rfl, rfl, rfl, rfl, rfl, rfl, rfl, rfl, rfl, rfl⟩

@[simp] theorem State.bumpRefused_frame :
    s.bumpRefused.pending = s.pending ∧ s.bumpRefused.phase = s.phase
      ∧ s.bumpRefused.strap = s.strap ∧ s.bumpRefused.fault = s.fault
      ∧ s.bumpRefused.known = s.known ∧ s.bumpRefused.startInterval = s.startInterval
      ∧ s.bumpRefused.config = s.config ∧ s.bumpRefused.silenced = s.silenced
      ∧ s.bumpRefused.minute = s.minute ∧ s.bumpRefused.second = s.second
      ∧ s.bumpRefused.timeValid = s.timeValid ∧ s.bumpRefused.marks = s.marks
      ∧ s.bumpRefused.records = s.records ∧ s.bumpRefused.freePages = s.freePages
      ∧ s.bumpRefused.text = s.text ∧ s.bumpRefused.reports = s.reports
      ∧ s.bumpRefused.claims = s.claims ∧ s.bumpRefused.queue = s.queue
      ∧ s.bumpRefused.lines = s.lines :=
  ⟨rfl, rfl, rfl, rfl, rfl, rfl, rfl, rfl, rfl, rfl, rfl, rfl, rfl, rfl, rfl, rfl, rfl, rfl, rfl⟩

/-! ## Lines -/

@[simp] theorem State.line_setLine_self (l : LineId) (x : Line) : (s.setLine l x).line l = x := by
  simp [State.line, State.setLine]

theorem State.line_setLine_ne {l m : LineId} (x : Line) (h : m ≠ l) :
    (s.setLine l x).line m = s.line m := by
  simp only [State.line, State.setLine, Fin.getElem_fin]
  exact Vector.getElem_set_ne _ _ (fun e => h (Fin.ext e.symm))

@[simp] theorem State.line_modLine_self (l : LineId) (f : Line → Line) :
    (s.modLine l f).line l = f (s.line l) := by
  simp [State.modLine]

theorem State.line_modLine_ne {l m : LineId} (f : Line → Line) (h : m ≠ l) :
    (s.modLine l f).line m = s.line m :=
  s.line_setLine_ne _ h

@[simp] theorem vecOf_get {α : Type} (n : Nat) (f : Fin n → α) (i : Fin n) : (vecOf n f)[i] = f i := by
  simp [vecOf]

@[simp] theorem vecOf_getElem {α : Type} (n : Nat) (f : Fin n → α) (i : Nat) (h : i < n) :
    (vecOf n f)[i] = f ⟨i, h⟩ := by
  simp [vecOf]

@[simp] theorem State.line_mapLines (f : LineId → Line → Line) (l : LineId) :
    (s.mapLines f).line l = f l (s.line l) := by
  simp [State.line, State.mapLines, vecOf]

/-- The lines of a state that differs in other fields read the same. -/
theorem State.line_congr {s t : State} (h : t.lines = s.lines) (l : LineId) : t.line l = s.line l := by
  simp [State.line, h]

theorem State.lineConfig_congr {s t : State} (h : t.config = s.config) (l : LineId) :
    t.lineConfig l = s.lineConfig l := by
  simp [State.lineConfig, h]

/-! ## Records -/

@[simp] theorem State.record_setRecord_self (i : Slot) (r : Option Record) :
    (s.setRecord i r).record i = r := by
  simp [State.record, State.setRecord]

theorem State.record_setRecord_ne {i j : Slot} (r : Option Record) (h : j ≠ i) :
    (s.setRecord i r).record j = s.record j := by
  simp only [State.record, State.setRecord, Fin.getElem_fin]
  exact Vector.getElem_set_ne _ _ (fun e => h (Fin.ext e.symm))

@[simp] theorem State.record_modRecord_self (i : Slot) (f : Record → Record) :
    (s.modRecord i f).record i = (s.record i).map f := by
  simp [State.modRecord]

theorem State.record_modRecord_ne {i j : Slot} (f : Record → Record) (h : j ≠ i) :
    (s.modRecord i f).record j = s.record j :=
  s.record_setRecord_ne _ h

theorem State.record_congr {s t : State} (h : t.records = s.records) (i : Slot) :
    t.record i = s.record i := by
  simp [State.record, h]

/-- A slot found under a key holds a record with that key (R132). -/
theorem State.findKey_spec {s : State} {k : Key} {i : Slot} (h : s.findKey k = some i) :
    ∃ r, s.record i = some r ∧ r.key = k := by
  have h' := List.find?_some h
  cases hr : s.record i with
  | none => simp [hr] at h'
  | some r => exact ⟨r, rfl, by simpa [hr] using h'⟩

/-- No slot is found under a key that no record holds. -/
theorem State.findKey_none {s : State} {k : Key} (h : ∀ i r, s.record i = some r → r.key ≠ k) :
    s.findKey k = none := by
  simp only [State.findKey, List.find?_eq_none]
  intro i _
  cases hr : s.record i with
  | none => simp
  | some r => simpa using h i r hr

/-- The lowest-numbered free slot is the one found (R132). -/
theorem State.freeSlot_lowest {s : State} {i : Slot} (h : s.record i = none)
    (low : ∀ j < i, s.record j ≠ none) : s.freeSlot = some i := by
  cases hs : s.freeSlot with
  | none =>
    have h' := List.find?_eq_none.mp hs i (List.mem_finRange i)
    simp [h] at h'
  | some j =>
    obtain ⟨hj, as, bs, e, hn⟩ := List.find?_eq_some_iff_append.mp hs
    have hj' : s.record j = none := by simpa using hj
    rcases lt_trichotomy i j with lt | eq | gt
    · have hm : i ∈ as := by
        have hp : (as ++ j :: bs).Pairwise (· < ·) := e ▸ List.pairwise_lt_finRange 96
        have hi : i ∈ as ++ j :: bs := e ▸ List.mem_finRange i
        rcases List.mem_append.mp hi with ha | hb
        · exact ha
        · rcases List.mem_cons.mp hb with rfl | hb
          · exact absurd lt (lt_irrefl _)
          · have := (List.pairwise_cons.mp (List.pairwise_append.mp hp).2.1).1 i hb
            exact absurd (lt_trans lt this) (lt_irrefl _)
      have := hn i hm
      simp [h] at this
    · rw [eq]
    · exact absurd hj' (low j gt)

/-- The free slot is free (R132). -/
theorem State.freeSlot_spec {s : State} {i : Slot} (h : s.freeSlot = some i) : s.record i = none := by
  have h' := List.find?_some h
  simpa using h'

/-! ## Counters -/

/-- A counter stays within its range (R131). -/
theorem bump_le {c : Nat} (h : c ≤ Config.counterLimit) : bump c ≤ Config.counterLimit := by
  unfold bump
  split <;> omega

/-- A counter below its limit takes one more. -/
theorem bump_of_lt {c : Nat} (h : c < Config.counterLimit) : bump c = c + 1 := if_pos h

/-- A counter at its limit stays there. -/
theorem bump_limit : bump Config.counterLimit = Config.counterLimit := if_neg (Nat.lt_irrefl _)

end Sys2Proof.Machine
end

