-- ==== Sys2Proof/Laws/Fixed.lean ====
section
/-! SUPPORT. What no work of a line or of the message store touches: the strap, the configuration, the
clock, the silenced set, the claim windows, the text and the queue of commands. `State.fixed` keeps just
these fields, one lemma for each shared operation says that it keeps them, and the last lemma says it of a
whole boundary. -/

namespace Sys2Proof.Machine

/-- A state with everything but its fixed fields set to nothing: equal `fixed` means equal pending, phase,
strap, fault, known, startInterval, config, silenced, minute, second, timeValid, marks, text and claims. -/
def State.fixed (s : State) : State :=
  { s with records := State.reset.records, freePages := [], reports := [], queue := []
           counters := .zero, lines := State.reset.lines }

theorem State.fixed_fields {s t : State} (h : t.fixed = s.fixed) :
    (t.pending = s.pending ∧ t.phase = s.phase ∧ t.strap = s.strap ∧ t.fault = s.fault
      ∧ t.known = s.known ∧ t.startInterval = s.startInterval ∧ t.config = s.config)
      ∧ t.silenced = s.silenced ∧ t.minute = s.minute ∧ t.second = s.second
      ∧ t.timeValid = s.timeValid ∧ t.marks = s.marks ∧ t.text = s.text ∧ t.claims = s.claims := by
  simp only [State.fixed, State.mk.injEq] at h
  simp [h]

variable (s : State)

/-! ## Ops -/

@[simp] theorem State.fixed_setLine (l : LineId) (x : Line) : (s.setLine l x).fixed = s.fixed := rfl
@[simp] theorem State.fixed_modLine (l : LineId) (f : Line → Line) : (s.modLine l f).fixed = s.fixed := rfl
@[simp] theorem State.fixed_modCounters (l : LineId) (f : LineCounters → LineCounters) :
    (s.modCounters l f).fixed = s.fixed := rfl
@[simp] theorem State.fixed_setCircuit (l : LineId) (c : Option Circuit) :
    (s.setCircuit l c).fixed = s.fixed := rfl
@[simp] theorem State.fixed_modWindow (l : LineId) (f : Window → Window) :
    (s.modWindow l f).fixed = s.fixed := rfl
@[simp] theorem State.fixed_modArbiter (l : LineId) (f : Arbiter → Arbiter) :
    (s.modArbiter l f).fixed = s.fixed := rfl
@[simp] theorem State.fixed_setRecord (i : Slot) (r : Option Record) :
    (s.setRecord i r).fixed = s.fixed := rfl
@[simp] theorem State.fixed_modRecord (i : Slot) (f : Record → Record) :
    (s.modRecord i f).fixed = s.fixed := rfl
@[simp] theorem State.fixed_modPart (i : Slot) (l : LineId) (f : Part → Part) :
    (s.modPart i l f).fixed = s.fixed := rfl
@[simp] theorem State.fixed_addReport (i : Slot) (item : ReportItem) :
    (s.addReport i item).fixed = s.fixed := rfl
@[simp] theorem State.fixed_discardBsent (i : Slot) (l : LineId) :
    (s.discardBsent i l).fixed = s.fixed := rfl
@[simp] theorem State.fixed_discardBsents (i : Slot) : (s.discardBsents i).fixed = s.fixed := rfl
@[simp] theorem State.fixed_bumpDiscarded : s.bumpDiscarded.fixed = s.fixed := rfl
@[simp] theorem State.fixed_bumpLost : s.bumpLost.fixed = s.fixed := rfl
@[simp] theorem State.fixed_with_reports (r : List Report) :
    ({ s with reports := r } : State).fixed = s.fixed := rfl
@[simp] theorem State.fixed_with_queue (q : List Queued) :
    ({ s with queue := q } : State).fixed = s.fixed := rfl
@[simp] theorem State.fixed_with_both (r : List Report) (q : List Queued) :
    ({ s with reports := r, queue := q } : State).fixed = s.fixed := rfl

@[simp] theorem State.fixed_addBsent (i : Slot) (l : LineId) (rem : Remaining) :
    (s.addBsent i l rem).fixed = s.fixed := by
  unfold State.addBsent
  split <;> rfl

@[simp] theorem State.fixed_returnPages (i : Slot) : (s.returnPages i).fixed = s.fixed := by
  unfold State.returnPages
  split <;> rfl

@[simp] theorem State.fixed_freeIfSpent (i : Slot) : (s.freeIfSpent i).fixed = s.fixed := by
  unfold State.freeIfSpent
  repeat' split
  all_goals rfl

@[simp] theorem State.fixed_endWork (i : Slot) : (s.endWork i).fixed = s.fixed := by
  simp [State.endWork]

@[simp] theorem State.fixed_tellDiscard (p : Payload) : (s.tellDiscard p).fixed = s.fixed := by
  unfold State.tellDiscard
  repeat' split
  all_goals rfl

@[simp] theorem State.fixed_offerFrame (f : Frame) : (s.offerFrame f).fixed = s.fixed := by
  unfold State.offerFrame
  repeat' split
  · rfl
  · simp
  · dsimp only
    split
    · exact (State.fixed_tellDiscard _ _).trans rfl
    · rfl

@[simp] theorem State.fixed_handReport : s.handReport.fixed = s.fixed := by
  unfold State.handReport
  repeat' split
  all_goals first | rfl | simp

@[simp] theorem State.fixed_handMany (n : Nat) : ∀ s : State, (State.handMany n s).fixed = s.fixed := by
  induction n with
  | zero => exact fun s => rfl
  | succ n ih => exact fun s => (ih _).trans s.fixed_handReport

@[simp] theorem State.fixed_handReports : s.handReports.fixed = s.fixed := by
  simp [State.handReports]

/-! ## Entries -/

@[simp] theorem State.fixed_modEntry (l : LineId) (ship : Nat) (f : Entry → Entry) :
    (s.modEntry l ship f).fixed = s.fixed := rfl
@[simp] theorem State.fixed_freeEntry (l : LineId) (ship : Nat) : (s.freeEntry l ship).fixed = s.fixed := rfl
@[simp] theorem State.fixed_freeEmptyEntry (l : LineId) (ship : Nat) :
    (s.freeEmptyEntry l ship).fixed = s.fixed := rfl
@[simp] theorem State.fixed_entryToTail (l : LineId) (ship : Nat) (f : Entry → Entry) :
    (s.entryToTail l ship f).fixed = s.fixed := rfl
@[simp] theorem State.fixed_entryToHead (l : LineId) (ship : Nat) (f : Entry → Entry) :
    (s.entryToHead l ship f).fixed = s.fixed := rfl

@[simp] theorem State.fixed_leaveEntry (i : Slot) : (s.leaveEntry i).fixed = s.fixed := by
  unfold State.leaveEntry
  repeat' split
  all_goals rfl

@[simp] theorem State.fixed_finishTelex (i : Slot) (item : ReportItem) :
    (s.finishTelex i item).fixed = s.fixed := by
  simp [State.finishTelex]

@[simp] theorem State.fixed_returnMessages (reason : Reason) (is : List Slot) :
    ∀ s : State, (s.returnMessages reason is).fixed = s.fixed := by
  induction is with
  | nil => exact fun s => rfl
  | cons i rest ih => exact fun s => (ih _).trans (by simp)

@[simp] theorem State.fixed_countAttempt (l : LineId) (ship : Nat) (reason : Reason) :
    (s.countAttempt l ship reason).fixed = s.fixed := by
  unfold State.countAttempt
  repeat' split
  all_goals simp

/-! ## Bulletins and windows -/

@[simp] theorem State.fixed_leaveQueues (l : LineId) (i : Slot) : (s.leaveQueues l i).fixed = s.fixed := rfl
@[simp] theorem State.fixed_joinQueue (l : LineId) (i : Slot) (kind : ClassType) (cls : Nat) :
    (s.joinQueue l i kind cls).fixed = s.fixed := rfl
@[simp] theorem State.fixed_dropNotice (l : LineId) : (s.dropNotice l).fixed = s.fixed := rfl
@[simp] theorem State.fixed_endOfMessage (l : LineId) (i : Slot) : (s.endOfMessage l i).fixed = s.fixed := rfl

/-- A fold of steps that keep the fixed fields keeps them. -/
theorem State.fixed_foldl {α : Type} {f : State → α → State} (h : ∀ t a, (f t a).fixed = t.fixed)
    (as : List α) : ∀ s : State, (as.foldl f s).fixed = s.fixed := by
  induction as with
  | nil => exact fun s => rfl
  | cons a rest ih => exact fun s => (ih _).trans (h s a)

@[simp] theorem State.fixed_clearPassMarks (l : LineId) : (s.clearPassMarks l).fixed = s.fixed :=
  State.fixed_foldl (fun t i => t.fixed_modPart i l _) _ _

@[simp] theorem State.fixed_closeWindow (l : LineId) : (s.closeWindow l).fixed = s.fixed := by
  simp [State.closeWindow]

@[simp] theorem State.fixed_unitEnds (l : LineId) : (s.unitEnds l).fixed = s.fixed := by
  unfold State.unitEnds
  dsimp only
  repeat' split
  all_goals simp

@[simp] theorem State.fixed_finishWithdrawal (i : Slot) : (s.finishWithdrawal i).fixed = s.fixed := by
  simp [State.finishWithdrawal]

@[simp] theorem State.fixed_finishIfWithdrawn (i : Slot) : (s.finishIfWithdrawn i).fixed = s.fixed := by
  unfold State.finishIfWithdrawn
  repeat' split
  all_goals simp

@[simp] theorem State.fixed_withdrawPart (i : Slot) (l : LineId) (cut : Bool) :
    (s.withdrawPart i l cut).fixed = s.fixed := by
  simp [State.withdrawPart]

@[simp] theorem State.fixed_retireIfDone (i : Slot) : (s.retireIfDone i).fixed = s.fixed := by
  unfold State.retireIfDone
  repeat' split
  all_goals simp

@[simp] theorem State.fixed_beginSending (l : LineId) (i : Slot) :
    (s.beginSending l i).1.fixed = s.fixed := by
  unfold State.beginSending
  dsimp only
  split <;> rfl

@[simp] theorem State.fixed_continueSending (l : LineId) (i : Slot) :
    (s.continueSending l i).1.fixed = s.fixed := by
  unfold State.continueSending
  dsimp only
  split <;> rfl

@[simp] theorem State.fixed_requeue (l : LineId) (i : Slot) (kind : ClassType) (finished : Bool) :
    (s.requeue l i kind finished).fixed = s.fixed := by
  unfold State.requeue
  repeat' split
  all_goals rfl

@[simp] theorem State.fixed_completeSending (l : LineId) (i : Slot) :
    (s.completeSending l i).fixed = s.fixed := by
  unfold State.completeSending
  repeat' split
  all_goals simp

@[simp] theorem State.fixed_abandonSending (l : LineId) (i : Slot) :
    (s.abandonSending l i).fixed = s.fixed := rfl

@[simp] theorem State.fixed_stopSending (l : LineId) (i : Slot) : (s.stopSending l i).fixed = s.fixed := by
  unfold State.stopSending
  split <;> simp

@[simp] theorem State.fixed_breakSending (l : LineId) (i : Slot) :
    (s.breakSending l i).1.fixed = s.fixed := by
  unfold State.breakSending
  dsimp only
  split <;> simp

@[simp] theorem State.fixed_removeWithdrawn (l : LineId) (i : Slot) :
    (s.removeWithdrawn l i).fixed = s.fixed := by
  unfold State.removeWithdrawn
  split <;> simp

/-! ## Circuits -/

@[simp] theorem State.fixed_releaseMessage (i : Slot) : (s.releaseMessage i).fixed = s.fixed := by
  unfold State.releaseMessage
  repeat' split
  all_goals simp

@[simp] theorem State.fixed_releaseCurrent (c : Circuit) : (s.releaseCurrent c).fixed = s.fixed := by
  unfold State.releaseCurrent
  split <;> simp

@[simp] theorem State.fixed_endCurrent (l : LineId) (c : Circuit) : (s.endCurrent l c).fixed = s.fixed := by
  unfold State.endCurrent
  repeat' split
  all_goals simp

@[simp] theorem State.fixed_loseCircuit (l : LineId) (attempt : Bool) :
    (s.loseCircuit l attempt).fixed = s.fixed := by
  unfold State.loseCircuit
  repeat' split
  all_goals simp

@[simp] theorem State.fixed_placeCleared (l : LineId) (ship : Nat) (failed : Bool) :
    (s.placeCleared l ship failed).fixed = s.fixed := by
  unfold State.placeCleared
  repeat' split
  all_goals simp

@[simp] theorem State.fixed_completeClear (l : LineId) (c : Circuit) :
    (s.completeClear l c).fixed = s.fixed := by
  unfold State.completeClear
  dsimp only
  split <;> simp

@[simp] theorem State.fixed_notAcknowledged (l : LineId) (c : Circuit) (isBlock : Bool) :
    (s.notAcknowledged l c isBlock).fixed = s.fixed := by
  unfold State.notAcknowledged
  dsimp only
  repeat' split
  all_goals simp

@[simp] theorem State.fixed_deliver (l : LineId) (c : Circuit) (i : Slot) (clearAfter : Bool) :
    (s.deliver l c i clearAfter).fixed = s.fixed := by
  unfold State.deliver
  dsimp only
  split <;> simp

@[simp] theorem State.fixed_blockGood (l : LineId) (c : Circuit) (i : Slot) :
    (s.blockGood l c i).fixed = s.fixed := by
  unfold State.blockGood
  dsimp only
  repeat' split
  all_goals simp

@[simp] theorem State.fixed_settleCircuit (l : LineId) (c : Circuit) (ended : Cycle) (o : Outcome) :
    (s.settleCircuit l c ended o).fixed = s.fixed := by
  unfold State.settleCircuit State.settleCall State.settleAlign State.settleIdent State.settleBlock
    State.settleIdle State.settleRephase State.cutGood
  repeat' split
  all_goals simp

@[simp] theorem State.fixed_silenceStep (l : LineId) (ended : Option Cycle) (o : Option Outcome) :
    (s.silenceStep l ended o).fixed = s.fixed := by
  unfold State.silenceStep
  repeat' split
  all_goals simp

@[simp] theorem State.fixed_emptiedCheck (l : LineId) : (s.emptiedCheck l).fixed = s.fixed := by
  unfold State.emptiedCheck
  repeat' split
  all_goals simp

@[simp] theorem State.fixed_handKeep (l : LineId) : (s.handKeep l).1.fixed = s.fixed := rfl
@[simp] theorem State.fixed_handPark (l : LineId) (c : Circuit) : (s.handPark l c).1.fixed = s.fixed := rfl
@[simp] theorem State.fixed_startCall (l : LineId) (ship : Nat) : (s.startCall l ship).1.fixed = s.fixed := rfl
@[simp] theorem State.fixed_handCut (l : LineId) (c : Circuit) : (s.handCut l c).1.fixed = s.fixed := rfl

@[simp] theorem State.fixed_handOperation (l : LineId) (c : Circuit) :
    (s.handOperation l c).1.fixed = s.fixed := by
  unfold State.handOperation
  repeat' split
  all_goals rfl

@[simp] theorem State.fixed_handBlock (l : LineId) (c : Circuit) (i : Slot) :
    (s.handBlock l c i).1.fixed = s.fixed := by
  unfold State.handBlock
  split <;> rfl

@[simp] theorem State.fixed_handIdle (l : LineId) (c : Circuit) : (s.handIdle l c).1.fixed = s.fixed := by
  unfold State.handIdle
  split <;> rfl

@[simp] theorem State.fixed_handTraffic (l : LineId) (c : Circuit) :
    (s.handTraffic l c).1.fixed = s.fixed := by
  unfold State.handTraffic
  repeat' split
  all_goals simp

/-! ## The interleaver -/

@[simp] theorem State.fixed_countedTurn (l : LineId) (p : State × Cycle) :
    (countedTurn l p).1.fixed = p.1.fixed := rfl

@[simp] theorem State.fixed_serveFiller (l : LineId) : (s.serveFiller l).1.fixed = s.fixed := by
  unfold State.serveFiller
  dsimp only
  repeat' split
  all_goals rfl

@[simp] theorem State.fixed_serveFree (l : LineId) : (s.serveFree l).1.fixed = s.fixed := by
  unfold State.serveFree
  split <;> simp

@[simp] theorem State.fixed_serveCall (l : LineId) : (s.serveCall l).1.fixed = s.fixed := by
  unfold State.serveCall
  split <;> simp

@[simp] theorem State.fixed_serveTraffic (l : LineId) : (s.serveTraffic l).1.fixed = s.fixed := by
  unfold State.serveTraffic
  repeat' split
  all_goals simp

@[simp] theorem State.fixed_handNotice (l : LineId) : (s.handNotice l).1.fixed = s.fixed := rfl

@[simp] theorem State.fixed_beginUnit (l : LineId) (a : WindowAnswer) :
    (s.beginUnit l a).1.fixed = s.fixed := by
  unfold State.beginUnit
  split <;> simp

@[simp] theorem State.fixed_serveWindow (l : LineId) : (s.serveWindow l).1.fixed = s.fixed := by
  unfold State.serveWindow State.unitBoundary State.askWithoutCircuit State.unitOfTurn State.readTable
  dsimp only
  repeat' split
  all_goals simp

@[simp] theorem State.fixed_serveUnit (l : LineId) : (s.serveUnit l).1.fixed = s.fixed := by
  unfold State.serveUnit
  repeat' split
  all_goals simp

@[simp] theorem State.fixed_serveCutIn (l : LineId) : (s.serveCutIn l).1.fixed = s.fixed := by
  unfold State.serveCutIn State.prepareCutIn
  dsimp only
  repeat' split
  all_goals simp

@[simp] theorem State.fixed_serveOperation (l : LineId) : (s.serveOperation l).1.fixed = s.fixed := by
  unfold State.serveOperation State.serveKeep State.serveCut
  repeat' split
  all_goals simp

@[simp] theorem State.fixed_endTests (l : LineId) : (s.endTests l).fixed = s.fixed := by
  unfold State.endTests
  dsimp only
  repeat' split
  all_goals simp

@[simp] theorem State.fixed_chooseCycle (l : LineId) : (s.chooseCycle l).1.fixed = s.fixed := by
  unfold State.chooseCycle
  dsimp only
  split <;> simp

/-! ## A boundary -/

@[simp] theorem State.fixed_settle (l : LineId) (ended : Option Cycle) (o : Option Outcome) :
    (s.settle l ended o).fixed = s.fixed := by
  unfold State.settle State.endNotice
  dsimp only
  repeat' split
  all_goals simp

@[simp] theorem State.fixed_settled (l : LineId) : (s.settled l).fixed = s.fixed :=
  s.fixed_settle l _ _

@[simp] theorem State.fixed_removeAllWithdrawn (l : LineId) : (s.removeAllWithdrawn l).fixed = s.fixed :=
  State.fixed_foldl (fun t i => t.fixed_removeWithdrawn l i) _ _

@[simp] theorem State.fixed_openPending (l : LineId) : (s.openPending l).fixed = s.fixed := by
  unfold State.openPending
  repeat' split
  all_goals rfl

@[simp] theorem State.fixed_perBoundary (l : LineId) (before : List Entry) (ended : Option Cycle)
    (o : Option Outcome) : (s.perBoundary l before ended o).fixed = s.fixed := by
  simp [State.perBoundary, State.deferralStep, State.decreaseHolds]

@[simp] theorem State.fixed_worked (l : LineId) : (s.worked l).fixed = s.fixed := by
  simp [State.worked]

@[simp] theorem State.fixed_stopKeying (l : LineId) (m : Mode) : (s.stopKeying l m).fixed = s.fixed := by
  unfold State.stopKeying State.stopCircuit
  dsimp only
  repeat' split
  all_goals simp

@[simp] theorem State.fixed_modeStep (l : LineId) : (s.modeStep l).1.fixed = s.fixed := by
  unfold State.modeStep State.keyingCheck State.orderStep State.actOrder State.silenceCheck
  dsimp only
  repeat' split
  all_goals simp

@[simp] theorem State.fixed_choice (l : LineId) : (s.choice l).1.fixed = s.fixed := by
  unfold State.choice State.restCheck
  repeat' split
  all_goals simp

@[simp] theorem State.fixed_answer (l : LineId) (m : Mode) (order : Option (Station × OrderResult)) :
    (s.answer l m order).fixed = s.fixed := by
  unfold State.answer State.offerLineState
  dsimp only
  repeat' split
  all_goals simp

/-- A boundary changes neither the settings of the card, nor its clock, nor its claim windows, nor its text. -/
theorem State.fixed_boundary (l : LineId) : (s.boundary l).fixed = s.fixed := by
  simp [State.boundary, State.handOver]

end Sys2Proof.Machine
end

