-- ==== Sys2Proof/Laws/Memory.lean ====
section
/-! SUPPORT. The text memory: a read after a write, and the canonical form, which every memory operation
keeps. -/

namespace Sys2Proof.Machine

/-! ## Reading after writing -/

/-- The entries of a canonical memory's tail lie above its head. -/
theorem Memory.wf_cons {a : Nat} {v : Byte} {m : Memory} (h : Memory.wf ((a, v) :: m) = true) :
    v ≠ Memory.blank ∧ Memory.wf m = true ∧ ∀ p ∈ m, a < p.1 := by
  induction m generalizing a v with
  | nil =>
    simp only [Memory.wf, Bool.and_eq_true, bne_iff_ne] at h
    exact ⟨h.2, rfl, by simp⟩
  | cons p rest ih =>
    obtain ⟨b, w⟩ := p
    simp only [Memory.wf, Bool.and_eq_true, decide_eq_true_eq, bne_iff_ne] at h
    obtain ⟨⟨hab, hv⟩, hwf⟩ := h
    obtain ⟨-, -, hall⟩ := ih hwf
    refine ⟨hv, hwf, fun q hq => ?_⟩
    rcases List.mem_cons.mp hq with rfl | hq
    · exact hab
    · exact hab.trans (hall q hq)

/-- An address below every entry is unlisted. -/
theorem Memory.read_of_lt {m : Memory} {a : Nat} (h : ∀ p ∈ m, a < p.1) :
    Memory.read m a = Memory.blank := by
  induction m with
  | nil => rfl
  | cons p rest ih =>
    obtain ⟨b, w⟩ := p
    have hb := h (b, w) (by simp)
    have hne : a ≠ b := by simp only at hb; omega
    simp only [Memory.read, hne, if_false]
    exact ih fun q hq => h q (by simp [hq])

/-- A read at the address written gives the character written. -/
theorem Memory.read_write_self {m : Memory} (h : Memory.wf m = true) (a : Nat) (v : Byte) :
    (m.write a v).read a = v := by
  induction m with
  | nil =>
    by_cases hv : v = Memory.blank <;> simp [Memory.write, Memory.read, hv]
  | cons p rest ih =>
    obtain ⟨b, w⟩ := p
    obtain ⟨-, hwf, hall⟩ := Memory.wf_cons h
    simp only [Memory.write]
    split_ifs with h1 h2 h3 h4
    · rw [h2]
      refine Memory.read_of_lt fun q hq => ?_
      rcases List.mem_cons.mp hq with rfl | hq
      · exact h1
      · exact h1.trans (hall q hq)
    · simp [Memory.read]
    · subst h3; rw [h4]; exact Memory.read_of_lt hall
    · simp [Memory.read]
    · simp only [Memory.read, h3, if_false]
      exact ih hwf

/-- A write leaves every other address as it reads. -/
theorem Memory.read_write_ne {m : Memory} (h : Memory.wf m = true) {a c : Nat} (v : Byte) (hc : c ≠ a) :
    (m.write a v).read c = m.read c := by
  induction m with
  | nil =>
    by_cases hv : v = Memory.blank <;> simp [Memory.write, Memory.read, hv, hc]
  | cons p rest ih =>
    obtain ⟨b, w⟩ := p
    obtain ⟨-, hwf, hall⟩ := Memory.wf_cons h
    simp only [Memory.write]
    split_ifs with h1 h2 h3 h4
    · rfl
    · simp [Memory.read, hc]
    · subst h3; simp [Memory.read, hc]
    · subst h3; simp [Memory.read, hc]
    · by_cases hcb : c = b
      · simp [Memory.read, hcb]
      · simp only [Memory.read, hcb, if_false]
        exact ih hwf

/-! ## The canonical form -/

/-- The entries of a write are those of the memory and the one written. -/
theorem Memory.mem_write {m : Memory} {a : Nat} {v : Byte} {q : Host.Cell} (h : q ∈ m.write a v) :
    q ∈ m ∨ q = (a, v) := by
  induction m with
  | nil =>
    simp only [Memory.write] at h
    split_ifs at h <;> simp_all
  | cons p rest ih =>
    obtain ⟨b, w⟩ := p
    simp only [Memory.write] at h
    split_ifs at h with h1 h2 h3 h4
    · exact .inl h
    · rcases List.mem_cons.mp h with rfl | h
      · exact .inr rfl
      · exact .inl h
    · exact .inl (List.mem_cons_of_mem _ h)
    · rcases List.mem_cons.mp h with rfl | h
      · exact .inr rfl
      · exact .inl (List.mem_cons_of_mem _ h)
    · rcases List.mem_cons.mp h with rfl | h
      · exact .inl (by simp)
      · exact (ih h).imp_left (List.mem_cons_of_mem _)

/-- A memory is canonical where its head is fit, its tail is canonical, and the tail lies above the head. -/
theorem Memory.wf_of_cons {a : Nat} {v : Byte} {m : Memory} (ha : a < 65536) (hv : v ≠ Memory.blank)
    (hm : Memory.wf m = true) (hall : ∀ p ∈ m, a < p.1) : Memory.wf ((a, v) :: m) = true := by
  cases m with
  | nil => simp [Memory.wf, ha, hv]
  | cons p rest =>
    obtain ⟨b, w⟩ := p
    have hb : a < b := hall (b, w) (by simp)
    simp [Memory.wf, hb, hv, hm]

/-- The addresses of a canonical memory are places of the pool. -/
theorem Memory.wf_bound {m : Memory} (h : Memory.wf m = true) : ∀ p ∈ m, p.1 < 65536 := by
  induction m with
  | nil => simp
  | cons p rest ih =>
    obtain ⟨a, v⟩ := p
    obtain ⟨-, hwf, hall⟩ := Memory.wf_cons h
    intro q hq
    rcases List.mem_cons.mp hq with rfl | hq
    · cases rest with
      | nil =>
        simp only [Memory.wf, Bool.and_eq_true, decide_eq_true_eq] at h
        exact h.1
      | cons r rest =>
        have := hall r (by simp)
        have := ih hwf r (by simp)
        simp only; omega
    · exact ih hwf q hq

/-- A write at a place of the pool keeps the canonical form. -/
theorem Memory.wf_write {m : Memory} (h : Memory.wf m = true) {a : Nat} (ha : a < 65536) (v : Byte) :
    Memory.wf (m.write a v) = true := by
  induction m with
  | nil =>
    by_cases hv : v = Memory.blank <;> simp [Memory.write, Memory.wf, hv, ha]
  | cons p rest ih =>
    obtain ⟨b, w⟩ := p
    have hb := Memory.wf_bound h (b, w) (by simp)
    obtain ⟨hw, hwf, hall⟩ := Memory.wf_cons h
    simp only [Memory.write]
    split_ifs with h1 h2 h3 h4
    · exact h
    · refine Memory.wf_of_cons ha h2 h fun q hq => ?_
      rcases List.mem_cons.mp hq with rfl | hq
      · exact h1
      · exact h1.trans (hall q hq)
    · exact hwf
    · subst h3; exact Memory.wf_of_cons ha h4 hwf hall
    · refine Memory.wf_of_cons hb hw (ih hwf) fun q hq => ?_
      rcases Memory.mem_write hq with hq | rfl
      · exact hall q hq
      · simp only; omega

/-- Every character place of a page list is a place of the pool. -/
theorem charAddress_lt (pages : List PageId) (position : Nat) : charAddress pages position < 65536 := by
  have h := (pages.getD ((position - 1) / Config.pageSize) 0).isLt
  have := Nat.mod_lt (position - 1) (show 0 < Config.pageSize by decide)
  simp only [charAddress, Config.pageSize] at *
  omega

/-- Writing characters into a text keeps the canonical form. -/
theorem Memory.wf_writeChars (pages : List PageId) (bs : List Byte) :
    ∀ (m : Memory) (position : Nat), Memory.wf m = true →
      Memory.wf (writeChars pages m position bs) = true := by
  induction bs with
  | nil => exact fun m _ h => h
  | cons b bs ih => exact fun m p h => ih _ _ (Memory.wf_write h (charAddress_lt pages p) b)

/-- Writing characters into a text leaves every address that is none of their places. -/
theorem Memory.read_writeChars_ne (pages : List PageId) (bs : List Byte) (a : Nat) :
    ∀ (m : Memory) (position : Nat), Memory.wf m = true →
      (∀ j, j < bs.length → charAddress pages (position + j) ≠ a) →
      (writeChars pages m position bs).read a = m.read a := by
  induction bs with
  | nil => exact fun m _ _ _ => rfl
  | cons b bs ih =>
    intro m p h hne
    have h0 := hne 0 (by simp)
    rw [writeChars, ih _ _ (Memory.wf_write h (charAddress_lt pages p) b),
      Memory.read_write_ne h b (by simpa using h0.symm)]
    intro j hj
    have := hne (j + 1) (by simpa using hj)
    rwa [Nat.add_assoc, Nat.add_comm 1 j]

end Sys2Proof.Machine
end

