-- ==== Sys2Proof/Laws/Openings.lean ====
section
/-! SUPPORT. What the schedule clock's openings do to the lines (R93, R95). -/

namespace Sys2Proof.Machine

/-- A line takes an opening by its mode and window state (R95). -/
theorem State.takeOpening_line (s : State) (l : LineId) :
    (s.takeOpening l).line l = (s.line l).opened := by
  unfold State.takeOpening Line.opened
  dsimp only
  repeat' split
  all_goals simp_all [State.modWindow, State.modCounters]

/-- An opening touches no other line. -/
theorem State.takeOpening_line_ne (s : State) {l m : LineId} (h : m ≠ l) :
    (s.takeOpening l).line m = s.line m := by
  unfold State.takeOpening
  dsimp only
  repeat' split
  all_goals simp_all [State.modWindow, State.modCounters, State.line_modLine_ne]

/-- An opening touches nothing but lines. -/
theorem State.takeOpening_frame (s : State) (l : LineId) :
    s.takeOpening l = { s with lines := (s.takeOpening l).lines } := by
  unfold State.takeOpening
  dsimp only
  repeat' split
  all_goals rfl

/-- Openings touch nothing but lines. -/
theorem State.handOpenings_frame (s : State) (ls : List LineId) :
    s.handOpenings ls = { s with lines := (s.handOpenings ls).lines } := by
  have fold : ∀ (xs : List LineId) (t : State),
      xs.foldl (fun t l => if ls.contains l then t.takeOpening l else t) t
        = { t with lines :=
              (xs.foldl (fun t l => if ls.contains l then t.takeOpening l else t) t).lines } := by
    intro xs
    induction xs with
    | nil => intro t; rfl
    | cons a xs ih =>
      intro t
      rw [List.foldl_cons, ih]
      split
      · rw [State.takeOpening_frame t a]
      · rfl
  exact fold lineIds s

/-- Each line named takes one opening, however often it is named; the others stay (R93). -/
theorem State.handOpenings_line (s : State) (ls : List LineId) (l : LineId) :
    (s.handOpenings ls).line l = if ls.contains l then (s.line l).opened else s.line l := by
  have one : ∀ (t : State) (a : LineId), (if ls.contains a then t.takeOpening a else t).line l
      = if l = a then (if ls.contains a then (t.line l).opened else t.line l) else t.line l := by
    intro t a
    by_cases e : l = a
    · subst e
      split <;> simp [State.takeOpening_line]
    · rw [if_neg e]
      split
      · exact t.takeOpening_line_ne e
      · rfl
  simp only [State.handOpenings, lineIds, List.foldl_cons, List.foldl_nil, one]
  fin_cases l <;> simp

/-- The lines with a window time falling due. -/
theorem State.mem_dueLines (s : State) (due : Nat → Bool) (l : LineId) :
    (s.dueLines due).contains l = true ↔ ∃ i, s.fallsDue due l i = true := by
  simp only [State.dueLines, List.contains_iff_mem, List.mem_filter, List.any_eq_true,
    List.mem_finRange, true_and]
  fin_cases l <;> simp [lineIds]

end Sys2Proof.Machine
end

