-- ==== Sys2Proof/Laws/Queue.lean ====
section
/-! SUPPORT. The transmit queue and the report list: what an offered frame, a removal and a report handed can
do, said once each. -/

namespace Sys2Proof.Machine

/-! ## Taking a place -/

theorem length_enqueue (f : Frame) (q : List Queued) : (enqueue f q).length = q.length + 1 := by
  have h := congrArg List.length
    (List.takeWhile_append_dropWhile (p := fun e => decide (e.precedence ≤ f.payload.precedence)) (l := q))
  simp only [List.length_append] at h
  simp only [enqueue, List.length_append, List.length_cons, List.length_nil]
  omega

/-- The frames of a queue after one has taken its place are the queue's and that one. -/
theorem perm_enqueue (f : Frame) (q : List Queued) : (enqueue f q).Perm (⟨f, false⟩ :: q) := by
  have h := List.takeWhile_append_dropWhile
    (p := fun e : Queued => decide (e.precedence ≤ f.payload.precedence)) (l := q)
  have hp : (enqueue f q).Perm (⟨f, false⟩ :: (q.takeWhile (fun e => e.precedence ≤ f.payload.precedence)
      ++ q.dropWhile (fun e => e.precedence ≤ f.payload.precedence))) := by
    simp only [enqueue, List.append_assoc, List.singleton_append]
    exact List.perm_middle
  rwa [h] at hp

/-! ## Overflow -/

/-- The entry an offered frame displaces may be displaced by it (R173). -/
theorem victim_spec {p : Nat} {q : List Queued} {j : Nat} (h : victim p q = some j) :
    ∃ e, q[j]? = some e ∧ e.onWire = false ∧ p < e.precedence ∧ e.precedence = worstPrecedence p q := by
  have h' := List.find?_some h
  cases he : q[j]? with
  | none => simp [he] at h'
  | some e =>
    simp only [he, Option.any_some, Bool.and_eq_true, decide_eq_true_eq, Queued.displaceable,
      Bool.not_eq_eq_eq_not, Bool.not_true] at h'
    exact ⟨e, rfl, h'.1.1, h'.1.2, h'.2⟩

/-- The owner told of a discard changes only the TAKE-waiting note of one record (R173). -/
theorem State.tellDiscard_frame (s : State) (p : Payload) :
    (s.tellDiscard p).fixed = s.fixed ∧ (s.tellDiscard p).queue = s.queue
      ∧ (s.tellDiscard p).lines = s.lines ∧ (s.tellDiscard p).reports = s.reports
      ∧ (s.tellDiscard p).freePages = s.freePages ∧ (s.tellDiscard p).counters = s.counters := by
  unfold State.tellDiscard
  repeat' split
  all_goals exact ⟨rfl, rfl, rfl, rfl, rfl, rfl⟩

/-- All that offering a frame can do (R172, R173): it takes its place in a queue of fewer than 24; in a full
queue it displaces the entry `victim` names, or is itself discarded, and one discard is counted. -/
theorem State.offerFrame_cases (s : State) (f : Frame) :
    (s.queue.length < Config.queueLimit ∧ s.offerFrame f = { s with queue := enqueue f s.queue })
    ∨ (Config.queueLimit ≤ s.queue.length ∧ victim f.payload.precedence s.queue = none
        ∧ s.offerFrame f = s.bumpDiscarded.tellDiscard f.payload)
    ∨ (∃ j e, Config.queueLimit ≤ s.queue.length ∧ victim f.payload.precedence s.queue = some j
        ∧ s.queue[j]? = some e
        ∧ s.offerFrame f =
          ({ s.bumpDiscarded with queue := enqueue f (s.queue.eraseIdx j) } : State).tellDiscard
            e.frame.payload) := by
  unfold State.offerFrame
  split
  · next h => exact .inl ⟨h, rfl⟩
  · next h =>
    have hfull : Config.queueLimit ≤ s.queue.length := Nat.le_of_not_lt h
    split
    · next hv => exact .inr (.inl ⟨hfull, hv, rfl⟩)
    · next j hv =>
      obtain ⟨e, he, -⟩ := victim_spec hv
      exact .inr (.inr ⟨j, e, hfull, hv, he, by simp [he]⟩)

/-- An offered frame leaves a queue of at most 24. -/
theorem State.offerFrame_length (s : State) (f : Frame) (h : s.queue.length ≤ Config.queueLimit) :
    (s.offerFrame f).queue.length ≤ Config.queueLimit := by
  rcases s.offerFrame_cases f with ⟨hl, he⟩ | ⟨-, -, he⟩ | ⟨j, e, hl, hv, hj, he⟩
  · rw [he]; simp only [length_enqueue]; omega
  · rw [he, (State.tellDiscard_frame _ _).2.1]; exact h
  · have hlt : j < s.queue.length := (List.getElem?_eq_some_iff.mp hj).1
    rw [he, (State.tellDiscard_frame _ _).2.1]
    simp only [length_enqueue, List.length_eraseIdx_of_lt hlt]
    omega

/-- An offered frame touches the queue, one card counter and one TAKE-waiting note: no line, no report, no
page. -/
theorem State.offerFrame_frame (s : State) (f : Frame) :
    (s.offerFrame f).fixed = s.fixed ∧ (s.offerFrame f).lines = s.lines
      ∧ (s.offerFrame f).reports = s.reports ∧ (s.offerFrame f).freePages = s.freePages := by
  refine ⟨s.fixed_offerFrame f, ?_⟩
  rcases s.offerFrame_cases f with ⟨-, he⟩ | ⟨-, -, he⟩ | ⟨j, e, -, -, -, he⟩
  · rw [he]; exact ⟨rfl, rfl, rfl⟩
  · obtain ⟨-, -, h1, h2, h3, -⟩ := State.tellDiscard_frame s.bumpDiscarded f.payload
    rw [he, h1, h2, h3]; exact ⟨rfl, rfl, rfl⟩
  · obtain ⟨-, -, h1, h2, h3, -⟩ := State.tellDiscard_frame
      { s.bumpDiscarded with queue := enqueue f (s.queue.eraseIdx j) } e.frame.payload
    rw [he, h1, h2, h3]; exact ⟨rfl, rfl, rfl⟩

/-! ## Reports -/

/-- A record in REPORTING with nothing pending is freed, and nothing else changes (R145). -/
theorem State.freeIfSpent_cases (s : State) (i : Slot) :
    s.freeIfSpent i = s
    ∨ ∃ r, s.record i = some r ∧ r.state = .reporting ∧ (∀ p ∈ s.reports, p.slot ≠ i)
        ∧ s.freeIfSpent i = s.setRecord i none := by
  unfold State.freeIfSpent
  split
  · exact .inl rfl
  · next r hr =>
    split
    · next h => exact .inr ⟨r, hr, h.1, by simpa using h.2, rfl⟩
    · exact .inl rfl

/-- A report handed touches no line and no page (R144). -/
theorem State.handReport_frame (s : State) :
    s.handReport.fixed = s.fixed ∧ s.handReport.lines = s.lines
      ∧ s.handReport.freePages = s.freePages ∧ s.handReport.counters = s.counters := by
  refine ⟨s.fixed_handReport, ?_⟩
  unfold State.handReport
  split
  · exact ⟨rfl, rfl, rfl⟩
  · next p rest _ =>
    split
    · split
      · exact ⟨rfl, rfl, rfl⟩
      · next r _ =>
        rcases State.freeIfSpent_cases
          { s with reports := rest, queue := enqueue (reportFrame s r p.item) s.queue } p.slot with
          h | ⟨_, -, -, -, h⟩ <;> rw [h] <;> exact ⟨rfl, rfl, rfl⟩
    · exact ⟨rfl, rfl, rfl⟩

/-- A report handed leaves a queue of at most 24: it enters at 16 frames or fewer (R144). -/
theorem State.handReport_length (s : State) (h : s.queue.length ≤ Config.queueLimit) :
    s.handReport.queue.length ≤ Config.queueLimit := by
  unfold State.handReport
  split
  · exact h
  · next p rest _ =>
    split
    · next h16 =>
      split
      · exact h
      · next r _ =>
        have hq : (enqueue (reportFrame s r p.item) s.queue).length ≤ Config.queueLimit := by
          rw [length_enqueue]
          simp only [Config.reportLimit, Config.queueLimit] at *
          omega
        rcases State.freeIfSpent_cases
          { s with reports := rest, queue := enqueue (reportFrame s r p.item) s.queue } p.slot with
          h' | ⟨_, -, -, -, h'⟩ <;> rw [h'] <;> exact hq
    · exact h

/-- Whatever each report handed keeps, handing them all keeps. -/
theorem State.handReports_keeps {P : State → Prop} (h : ∀ s, P s → P s.handReport) :
    ∀ s, P s → P s.handReports := by
  have hm : ∀ n s, P s → P (State.handMany n s) := by
    intro n
    induction n with
    | zero => exact fun s hs => hs
    | succ n ih => exact fun s hs => ih _ (h s hs)
  exact fun s hs => hm _ s hs

theorem State.handReports_length (s : State) (h : s.queue.length ≤ Config.queueLimit) :
    s.handReports.queue.length ≤ Config.queueLimit :=
  State.handReports_keeps (P := fun s => s.queue.length ≤ Config.queueLimit)
    State.handReport_length s h

/-- With no report pending, none is handed. -/
theorem State.handReports_nil (s : State) (h : s.reports = []) : s.handReports = s := by
  simp [State.handReports, h, State.handMany]

/-- With more than 16 frames queued, no report is handed (R144). -/
theorem State.handReports_full (s : State) (h : Config.reportLimit < s.queue.length) :
    s.handReports = s := by
  have h1 : s.handReport = s := by
    unfold State.handReport
    split
    · rfl
    · rw [if_neg (by omega)]
  have hm : ∀ n, State.handMany n s = s := by
    intro n
    induction n with
    | zero => rfl
    | succ n ih => rw [State.handMany, h1, ih]
  exact hm _

end Sys2Proof.Machine
end

