-- ==== Sys2Proof/Laws/Reception.lean ====
section
/-! SUPPORT. The receive half of the bus port: what a reception decides, and all it can do (R168 to R171). -/

namespace Sys2Proof.Machine

/-- A frame is taken just where the read has ended, the length and the source pass, the destination and the
source's rank are the kind's, and FAULT hands the kind on. -/
theorem State.reception_taken_iff (s : State) (k : FrameKind) (h : Header) (poster : Station) (ok : Bool) :
    s.reception k h poster ok = .taken ↔
      s.phase = .settled ∧ ok = true ∧ h.source ≠ allStations ∧ s.destinationTaken k h.dest = true
        ∧ s.sourceAllowed k h.source poster = true ∧ (s.fault = false ∨ handedInFault k = true) := by
  unfold State.reception
  cases hp : s.phase <;> cases ok <;> by_cases hs : h.source = allStations <;>
    cases hd : s.destinationTaken k h.dest <;> cases ha : s.sourceAllowed k h.source poster <;>
    cases hf : s.fault <;> cases hk : handedInFault k <;> simp [hs]

/-- A frame taken is handed to its owner. -/
theorem State.receive_taken {s : State} {k : FrameKind} {h : Header} {poster : Station} {ok : Bool}
    (hr : s.reception k h poster ok = .taken) (act : State → State) :
    s.receive k h poster ok act = act s := by
  simp [State.receive, hr]

/-- All a received frame can do: nothing, one more bad frame, one more rank refusal, or the act of its
owner. -/
theorem State.receive_cases (s : State) (k : FrameKind) (h : Header) (poster : Station) (ok : Bool)
    (act : State → State) :
    s.receive k h poster ok act = s ∨ s.receive k h poster ok act = s.bumpBad
      ∨ s.receive k h poster ok act = s.bumpRefused
      ∨ (s.reception k h poster ok = .taken ∧ s.receive k h poster ok act = act s) := by
  unfold State.receive
  split <;> simp_all

/-- What every received frame keeps: it is enough that the two counts and the owner's act keep it. -/
theorem State.receive_keeps {P : State → Prop} {s : State} {act : State → State} (hs : P s)
    (hb : P s.bumpBad) (hr : P s.bumpRefused) (ha : P (act s)) (k : FrameKind) (h : Header)
    (poster : Station) (ok : Bool) : P (s.receive k h poster ok act) := by
  rcases s.receive_cases k h poster ok act with e | e | e | ⟨-, e⟩ <;> rw [e] <;> assumption

end Sys2Proof.Machine
end

