-- ==== Sys2Proof/Laws/Store.lean ====
section
/-! SUPPORT. What the operations of the message store do, each said once: pages returned, a record made, a
message out of its entry, work ended with a report (R132, R135, R137, R28, R149, R144). -/

namespace Sys2Proof.Machine

/-! ## Pages and records -/

/-- Pages return from an empty slot: nothing changes. -/
theorem State.returnPages_none {s : State} {i : Slot} (h : s.record i = none) : s.returnPages i = s := by
  simp [State.returnPages, h]

/-- The pages of a record join the tail of the free list (R135, R137). -/
theorem State.returnPages_some {s : State} {i : Slot} {r : Record} (h : s.record i = some r) :
    s.returnPages i = { s with freePages := s.freePages ++ r.pageList ++ r.reserved }.setRecord i
      (some { r with pageList := [], reserved := [] }) := by
  simp [State.returnPages, h]

/-- The pages returned are those the slot's record holds. -/
theorem State.returnPages_freePages (s : State) (i : Slot) :
    (s.returnPages i).freePages = s.freePages ++ s.pagesOf i := by
  cases h : s.record i with
  | none => simp [State.returnPages_none h, State.pagesOf, h]
  | some r => simp [State.returnPages_some h, State.pagesOf, h]

/-- Nothing but the free list and the one record changes. -/
theorem State.returnPages_frame (s : State) (i : Slot) :
    s.returnPages i
      = { s with freePages := (s.returnPages i).freePages, records := (s.returnPages i).records } := by
  unfold State.returnPages
  split <;> rfl

theorem State.returnPages_record_ne (s : State) {i j : Slot} (h : j ≠ i) :
    (s.returnPages i).record j = s.record j := by
  unfold State.returnPages
  split
  · rfl
  · exact State.record_setRecord_ne _ _ h

/-- A record is made in the lowest free slot with its pages from the head of the free list (R132, R136). -/
theorem State.createRecord_some {s : State} {k : Key} {n : Nat} {i : Slot} (st : RecordState) (timer : Bool)
    (b : Body) (held : ∀ j r, s.record j = some r → r.key ≠ k) (free : s.record i = none)
    (low : ∀ j < i, s.record j ≠ none) (pages : pagesFor n ≤ s.freePages.length) :
    s.createRecord k n st timer b = some (i,
      { s with freePages := s.freePages.drop (pagesFor n) }.setRecord i
        (some { key := k, state := st, n := n, loaded := 0, nextSeq := 0, pageList := []
                reserved := s.freePages.take (pagesFor n), loadTimer := timer, withdrawMark := false
                takeWaiting := false, body := b })) := by
  simp [State.createRecord, State.findKey_none held, State.freeSlot_lowest free low,
    Nat.not_lt.mpr pages]

/-- A record whose work ends: no pages, in REPORTING, no timer, mark or note (R137, R149). -/
theorem State.endWork_record {s : State} {i : Slot} {r : Record} (h : s.record i = some r) :
    (s.endWork i).record i = some { r with
      pageList := [], reserved := [], state := .reporting, loadTimer := false, withdrawMark := false
      takeWaiting := false } := by
  simp [State.endWork, State.returnPages_some h]

theorem State.endWork_record_ne (s : State) {i j : Slot} (h : j ≠ i) :
    (s.endWork i).record j = s.record j := by
  rw [State.endWork, State.record_modRecord_ne _ _ h, State.returnPages_record_ne _ h]

theorem State.endWork_frame (s : State) (i : Slot) :
    s.endWork i
      = { s with freePages := (s.endWork i).freePages, records := (s.endWork i).records } := by
  unfold State.endWork
  rw [State.returnPages_frame s i]
  rfl

theorem State.endWork_freePages (s : State) (i : Slot) :
    (s.endWork i).freePages = s.freePages ++ s.pagesOf i :=
  State.returnPages_freePages s i

theorem State.endWork_lines (s : State) (i : Slot) : (s.endWork i).lines = s.lines := by
  rw [State.endWork_frame]

/-- A change of the store followed by a change of the lines. -/
theorem State.frame_trans {s w u : State}
    (e1 : w = { s with freePages := w.freePages, records := w.records })
    (e2 : u = { w with lines := u.lines }) :
    u = { s with freePages := u.freePages, records := u.records, lines := u.lines } := by
  have hf : u.freePages = w.freePages := by rw [e2]
  have hr : u.records = w.records := by rw [e2]
  calc u = { w with lines := u.lines } := e2
    _ = { ({ s with freePages := w.freePages, records := w.records } : State) with
          lines := u.lines } := by rw [← e1]
    _ = _ := by rw [hf, hr]

/-! ## Leaving an entry and the queues -/

/-- A message leaves its entry: the lines alone change, and on the message's line the call list alone (R28). -/
theorem State.leaveEntry_spec {s : State} {i : Slot} {r : Record} {x : Telex} (h : s.record i = some r)
    (hx : r.body = .telex x) :
    leftEntry s (s.leaveEntry i) i x ∧ (∀ l, ((s.leaveEntry i).line l).bare = (s.line l).bare)
      ∧ s.leaveEntry i = { s with lines := (s.leaveEntry i).lines } := by
  have ht : (s.record i).bind Record.telex? = some x := by simp [h, Record.telex?, hx]
  cases hl : x.line with
  | none =>
    have e : s.leaveEntry i = s := by simp [State.leaveEntry, ht, hl]
    rw [e]
    exact ⟨⟨fun _ _ => rfl, fun l c => by simp [hl] at c, fun _ => ⟨rfl, rfl, rfl⟩⟩, fun _ => rfl, rfl⟩
  | some m =>
    have e : s.leaveEntry i = if (s.line m).worksFor x.ship
        then s.modEntry m x.ship fun e => { e with messages := e.messages.erase i }
        else (s.modEntry m x.ship fun e => { e with messages := e.messages.erase i }).freeEmptyEntry m
          x.ship := by
      simp [State.leaveEntry, ht, hl]
    rw [e]
    split
    · refine ⟨⟨?_, ?_, ?_⟩, ?_, rfl⟩
      · intro l hne
        have : l ≠ m := fun c => hne (by rw [hl, c])
        simp [State.modEntry, State.line_modLine_ne _ _ this]
      · intro l heq
        obtain rfl : m = l := by rw [hl] at heq; exact Option.some.inj heq
        refine ⟨?_, ?_⟩
        · intro e' he'
          simp only [State.modEntry, State.line_modLine_self, List.mem_map] at he'
          obtain ⟨e0, h0, rfl⟩ := he'
          exact ⟨e0, h0, rfl⟩
        · intro e0 h0 hs
          simp only [State.modEntry, State.line_modLine_self, List.mem_map]
          exact ⟨e0, h0, by simp [hs]⟩
      · intro l
        by_cases hlm : l = m
        · subst hlm; simp [State.modEntry]
        · simp [State.modEntry, State.line_modLine_ne _ _ hlm]
      · intro l
        by_cases hlm : l = m
        · subst hlm; simp [State.modEntry, Line.bare]
        · simp [State.modEntry, State.line_modLine_ne _ _ hlm]
    · refine ⟨⟨?_, ?_, ?_⟩, ?_, rfl⟩
      · intro l hne
        have : l ≠ m := fun c => hne (by rw [hl, c])
        simp [State.modEntry, State.freeEmptyEntry, State.line_modLine_ne _ _ this]
      · intro l heq
        obtain rfl : m = l := by rw [hl] at heq; exact Option.some.inj heq
        refine ⟨?_, ?_⟩
        · intro e' he'
          simp only [State.modEntry, State.freeEmptyEntry, State.line_modLine_self, List.mem_filter,
            List.mem_map] at he'
          obtain ⟨⟨e0, h0, rfl⟩, _⟩ := he'
          exact ⟨e0, h0, rfl⟩
        · intro e0 h0 hs
          simp only [State.modEntry, State.freeEmptyEntry, State.line_modLine_self, List.mem_filter,
            List.mem_map]
          exact ⟨⟨e0, h0, by simp [hs]⟩, by simp [hs]⟩
      · intro l
        by_cases hlm : l = m
        · subst hlm; simp [State.modEntry, State.freeEmptyEntry]
        · simp [State.modEntry, State.freeEmptyEntry, State.line_modLine_ne _ _ hlm]
      · intro l
        by_cases hlm : l = m
        · subst hlm; simp [State.modEntry, State.freeEmptyEntry, Line.bare]
        · simp [State.modEntry, State.freeEmptyEntry, State.line_modLine_ne _ _ hlm]

/-- A bulletin leaves the queues of every line, and nothing else changes (R83). -/
theorem State.leaveAllQueues_spec (s : State) (i : Slot) :
    leftQueues s (s.leaveAllQueues i) i ∧ (∀ l, ((s.leaveAllQueues i).line l).bare = (s.line l).bare)
      ∧ s.leaveAllQueues i = { s with lines := (s.leaveAllQueues i).lines } := by
  have line : ∀ l, (s.leaveAllQueues i).line l
      = { s.line l with
          cutInQueue := (s.line l).cutInQueue.erase i
          windowQueue := (s.line l).windowQueue.erase i
          freeQueue := (s.line l).freeQueue.erase i } := by
    intro l
    simp only [State.leaveAllQueues, lineIds, List.foldl_cons, List.foldl_nil, State.leaveQueues]
    fin_cases l <;> simp [State.line_modLine_ne]
  refine ⟨fun l => by rw [line l]; exact ⟨rfl, rfl, rfl, rfl⟩, fun l => by rw [line l]; rfl, rfl⟩

/-! ## The end of a record's work -/

/-- A final report of a record that has left its lines: it waits at the tail of the list, or is handed and the
record freed (R143, R144, R145). The state before the report is `u`, which differs from `s` as the end of
the work leaves it. -/
theorem State.workEnded_of_report {s u : State} {i : Slot} {r r' : Record} {item : ReportItem}
    (handed : s.reportsHanded) (pages : u.freePages = s.freePages ++ r.pageList ++ r.reserved)
    (left : match r.body with
      | .telex x => leftEntry s u i x
      | .bulletin _ => leftQueues s u i)
    (record : u.record i = some r') (others : ∀ j, j ≠ i → u.record j = s.record j)
    (state : r'.state = .reporting) (key : r'.key = r.key) (listed : r'.pageList = [])
    (reserved : r'.reserved = []) (timer : r'.loadTimer = false)
    (bare : ∀ l, (u.line l).bare = (s.line l).bare)
    (frame : u = { s with freePages := u.freePages, records := u.records, lines := u.lines }) :
    workEnded s (u.addReport i item).handReports i r item := by
  have hq : u.queue = s.queue := by rw [frame]
  have hr : u.reports = s.reports := by rw [frame]
  have hc : u.config = s.config := by rw [frame]
  by_cases full : Config.reportLimit < s.queue.length
  · have e : (u.addReport i item).handReports = u.addReport i item :=
      State.handReports_full _ (by simpa [State.addReport, hq] using full)
    rw [e]
    refine ⟨pages, ?_, others, fun _ => ⟨hq, ?_, r', record, state, key, listed, reserved, timer⟩,
      fun c => absurd full (Nat.not_lt.mpr c), bare, ?_⟩
    · cases hb : r.body <;> (rw [hb] at left; exact left)
    · simp [State.addReport, hr]
    · rw [frame]; rfl
  · have empty : s.reports = [] := handed.resolve_right full
    have room : u.queue.length ≤ Config.reportLimit := by rw [hq]; exact Nat.not_lt.mp full
    have fr : reportFrame (u.addReport i item) r' item = reportFrame s r item := by
      cases item <;> simp [reportFrame, key, State.lineConfig, State.addReport, hc]
    have e : (u.addReport i item).handReports
        = { u with reports := [], queue := enqueue (reportFrame s r item) s.queue }.setRecord i none := by
      have l1 : (u.addReport i item).reports = [⟨i, item⟩] := by simp [State.addReport, hr, empty]
      have r1 : (u.addReport i item).record i = some r' := record
      have q1 : (u.addReport i item).queue.length ≤ Config.reportLimit := room
      have h1 : (u.addReport i item).handReport
          = { u with reports := [], queue := enqueue (reportFrame s r item) s.queue }.setRecord i none := by
        simp only [State.handReport, l1, q1, if_true, r1, fr]
        have q2 : (u.addReport i item).queue = s.queue := hq
        rw [q2]
        have r2 : State.record { u.addReport i item with
            reports := [], queue := enqueue (reportFrame s r item) s.queue } i = some r' := record
        simp only [State.freeIfSpent, r2, state, List.any_nil]
        rfl
      unfold State.handReports
      rw [l1]
      exact h1
    rw [e]
    refine ⟨pages, ?_, ?_, fun c => absurd c full, fun _ => ⟨rfl, rfl, by simp⟩, bare, ?_⟩
    · cases hb : r.body <;> (rw [hb] at left; exact left)
    · intro j hj
      rw [State.record_setRecord_ne _ _ hj]
      exact others j hj
    · rw [frame]; rfl

/-- A LOADING record's work ends with a final report (R142, R148, R149). -/
theorem State.workEnded_endLoading {s : State} {i : Slot} {r : Record} (h : s.record i = some r)
    (handed : s.reportsHanded) (item : ReportItem) :
    workEnded s (s.endLoading i item).handReports i r item := by
  have hr := State.endWork_record h
  have pages : (s.endWork i).freePages = s.freePages ++ r.pageList ++ r.reserved := by
    simp [State.endWork_freePages, State.pagesOf, h]
  have lines : ∀ l, (s.endWork i).line l = s.line l := fun l =>
    State.line_congr (s.endWork_lines i) l
  cases hb : r.body with
  | telex x =>
    obtain ⟨left, bare, frame⟩ := State.leaveEntry_spec hr hb
    have e : s.endLoading i item = ((s.endWork i).leaveEntry i).addReport i item := by
      simp [State.endLoading, h, hb, State.finishTelex]
    rw [e]
    have record : ∀ j, ((s.endWork i).leaveEntry i).record j = (s.endWork i).record j := fun j =>
      State.record_congr (by rw [frame]) j
    refine State.workEnded_of_report handed ?_ ?_ ((record i).trans hr)
      (fun j hj => (record j).trans (State.endWork_record_ne _ hj)) rfl rfl rfl rfl rfl
      (fun l => by rw [bare l, lines l]) (State.frame_trans (s.endWork_frame i) frame)
    · rw [frame, pages]
    · rw [hb]
      simpa only [leftEntry, lines] using left
  | bulletin b =>
    obtain ⟨left, bare, frame⟩ := (s.endWork i).leaveAllQueues_spec i
    have e : s.endLoading i item = ((s.endWork i).removeParts i).addReport i item := by
      simp [State.endLoading, h, hb]
    rw [e]
    have record : ∀ j, ((s.endWork i).leaveAllQueues i).record j = (s.endWork i).record j := fun j =>
      State.record_congr (by rw [frame]) j
    have parts : (s.endWork i).removeParts i = { (s.endWork i).leaveAllQueues i with
        records := ((s.endWork i).removeParts i).records } := rfl
    have toLines : ((s.endWork i).removeParts i).lines = ((s.endWork i).leaveAllQueues i).lines := rfl
    have hr' : ((s.endWork i).removeParts i).record i = some ({ r with
        pageList := [], reserved := [], state := .reporting, loadTimer := false, withdrawMark := false
        takeWaiting := false }.modBulletin fun b => { b with parts := [] }) := by
      simp [State.removeParts, record i, hr]
    refine State.workEnded_of_report handed ?_ ?_ hr' (fun j hj => ?_) ?_ ?_ ?_ ?_ ?_ (fun l => ?_) ?_
    · show ((s.endWork i).leaveAllQueues i).freePages = _
      rw [frame, pages]
    · rw [hb]
      intro l
      have := left l
      rw [lines l] at this
      exact this
    · rw [State.removeParts, State.record_modRecord_ne _ _ hj, record j, State.endWork_record_ne _ hj]
    · simp [Record.modBulletin, hb]
    · simp [Record.modBulletin, hb]
    · simp [Record.modBulletin, hb]
    · simp [Record.modBulletin, hb]
    · simp [Record.modBulletin, hb]
    · show (((s.endWork i).leaveAllQueues i).line l).bare = _
      rw [bare l, lines l]
    · have f2 := State.frame_trans (s.endWork_frame i) frame
      conv_lhs => rw [parts, f2]
      rfl

/-! ## Records found, dropped and claims ended -/

/-- The record found under a key stands in the slot found under it (R132). -/
theorem State.recordUnder_spec {s : State} {k : Key} {i : Slot} {r : Record} (h : s.recordUnder k = some (i, r)) :
    s.findKey k = some i ∧ s.record i = some r := by
  unfold State.recordUnder at h
  cases hf : s.findKey k with
  | none => simp [hf] at h
  | some j =>
    rw [hf] at h
    simp only [Option.bind_some, Option.map_eq_some_iff, Prod.mk.injEq] at h
    obtain ⟨r', h1, rfl, rfl⟩ := h
    exact ⟨rfl, h1⟩

/-- A taken record dropped leaves nothing behind (R149, R163, R164). -/
theorem State.telexDropped_dropTaken {s : State} {i : Slot} {r : Record} {x : Telex}
    (h : s.record i = some r) (hb : r.body = .telex x) :
    telexDropped s (s.dropTaken i) i r x := by
  have hr : (s.returnPages i).record i = some {r with pageList := [], reserved := []} := by
    simp [State.returnPages_some h]
  obtain ⟨left, bare, frame⟩ := State.leaveEntry_spec hr hb
  have lines : ∀ l, (s.returnPages i).line l = s.line l := fun l => State.line_congr (by rw [State.returnPages_frame]) l
  have hrec : ∀ j, ((s.returnPages i).leaveEntry i).record j = (s.returnPages i).record j := fun j => State.record_congr (by rw [frame]) j
  have f2 := State.frame_trans (State.returnPages_frame s i) frame
  refine ⟨?_, ?_, ?_, ?_, ?_, ?_⟩
  · simp [State.dropTaken, State.dropTelex, State.bumpLost, State.record, State.setRecord]
  · show ((s.returnPages i).leaveEntry i).freePages = _
    rw [frame]; simp [State.returnPages_freePages, State.pagesOf, h]
  · intro j hj
    show (((s.returnPages i).leaveEntry i).setRecord i none).record j = _
    rw [State.record_setRecord_ne _ _ hj, hrec, State.returnPages_record_ne _ hj]
  · have : leftEntry s ((s.returnPages i).leaveEntry i) i x := by simpa only [leftEntry, lines] using left
    exact this
  · intro l; show (((s.returnPages i).leaveEntry i).line l).bare = _
    rw [bare, lines]
  · unfold State.dropTaken State.dropTelex
    conv_lhs => rw [f2]
    rfl

/-- A claim ended on a state that differs in its queue alone (R158, R160, R161, R174). -/
theorem State.claimEnded_endClaim {s : State} {w : ClaimWindow} {key : Key} (hk : w.key = key) (u : State)
    (hu : u = {s with queue := u.queue}) : claimEnded s (u.endClaim key w.slot) w := by
  have hr : ∀ j, u.record j = s.record j := fun j => State.record_congr (by rw [hu]) j
  have hf : u.freePages = s.freePages := by rw [hu]
  refine ⟨?_, ?_, ?_, ?_, ?_⟩
  · simp [State.endClaim, State.bumpLost, State.record, State.setRecord]
  · show (u.returnPages w.slot).freePages = _
    rw [State.returnPages_freePages, hf]; simp [State.pagesOf, hr]
  · intro j hj
    show ((u.returnPages w.slot).setRecord w.slot none).record j = _
    rw [State.record_setRecord_ne _ _ hj, State.returnPages_record_ne _ hj, hr]
  · show u.claims.filter _ = _
    rw [hu, hk]
  · unfold State.endClaim
    conv_lhs => rw [State.returnPages_frame, hu]
    simp [State.bumpLost, State.setRecord]
    rw [State.returnPages_frame u, hu]
    simp

end Sys2Proof.Machine
end

