-- ==== Sys2Proof/Tests/Slice0.lean ====
section
/-! SUPPORT. The model's own tests. First ill-formed commands that the well-formedness check refuses, then
small one-step checks with expected values from the manual's worked examples (the comment names the
chapter), then, for each statement, states and operands that meet its hypotheses. -/

set_option Elab.async false

namespace Sys2Proof.Machine.Tests

/-! ## Helpers: the card of chapter 04's gate example, and a step -/

/-- The state after a command. -/
def after (c : Instr) (s : State) : State :=
  match exec c s with
  | .next t => t
  | .fault _ => s
  | .refused _ => s

/-- A line of the example with its channel and band. -/
def lineOf (channel : Nat) (band : Band) : LineConfig :=
  { LineConfig.blank with channel := channel, band := band, q0 := 32, grace := 120, turn := 4 }

/-- Chapter 04's gate example: channels 412, none, 655 and 818, four classes, stations 1, 3 and 20 of ranks 0, 1
and 3; window times 720 and 1438 on line 0 (chapter 05). -/
def config : CardConfig :=
  { rankMap := vecOf 64 fun i => if i = 1 then 0 else if i = 3 then 1 else if i = 20 then 3 else 2
    classCount := 4
    classes := vecOf 16 fun j => match j.val with
      | 0 => ⟨.cutIn, 0, 2⟩
      | 1 => ⟨.window, 1, 0⟩
      | 2 => ⟨.free, 2, 1⟩
      | _ => ⟨.closed, 0, 0⟩
    lines := vecOf 4 fun l => match l.val with
      | 0 => { lineOf 412 2 with windowTimes := vecOf 8 fun i => if i = 0 then 720 else if i = 1 then 1438 else 1440 }
      | 1 => lineOf 0 0
      | 2 => lineOf 655 4
      | _ => lineOf 818 4 }

/-- Station 9 with that configuration: line 0 ACTIVE, 1 DISABLED, 2 in REST, 3 STOPPED. -/
def card : State :=
  { State.reset with
    phase := .settled, strap := 9, config := config
    lines := vecOf 4 fun l => { Line.reset with
      mode := match l.val with
        | 0 => .active
        | 1 => .disabled
        | 2 => .rest
        | _ => .stopped } }

/-- The card with something done to line 0. -/
def onLine (f : Line → Line) : State := card.modLine 0 f

/-- A circuit on line 0. -/
def circuit (state : CircuitState) : Circuit :=
  { Circuit.newCall 417 with state := state, q := 40, echoOffset := 16 }

/-- A cycle record with tag 5. -/
def cycleOf (c : Cycle) : Option CycleRecord := some ⟨5, 0, c⟩

def keyA : Key := ⟨5, 212⟩

/-- A telex record under key (5, 212) with n = 100. -/
def telexRecord (state : RecordState) : Record :=
  { key := keyA, state := state, n := 100, loaded := 0, nextSeq := 0, pageList := []
    reserved := [3, 1, 2, 0], loadTimer := true, withdrawMark := false, takeWaiting := false
    body := .telex { ship := 417, band := 2, clearAfter := false, ackCount := 0, line := some 0 } }

/-- A bulletin record under the same key with a queued part on line 0. -/
def bulletinRecord (state : RecordState) : Record :=
  { telexRecord state with
    body := .bulletin { cls := 2, kind := .free, repeats := 1, cutCounted := false
                        parts := [⟨0, .queued, .times 1, false, 0⟩] } }

/-- The card holding a record in slot 7. -/
def holding (r : Record) : State := card.setRecord 7 (some r)

/-- The card with a claim window for the record in slot 7. -/
def claimingCard (noted : Bool) (best : Option NotedClaim) : State :=
  { holding (telexRecord .claiming) with claims := [⟨keyA, 7, 3, noted, best, true⟩] }

/-- A header to the card from a station. -/
def from' (station : Station) : Header := ⟨station, 9⟩

/-- A header to all from a station. -/
def toAll (station : Station) : Header := ⟨station, 63⟩

/-- A queue of so many STATUS frames. -/
def statuses (n : Nat) : List Queued := List.replicate n ⟨⟨1, .cardStatus State.reset.cardStatus⟩, false⟩

/-- An ANNOUNCE listing channel 412. -/
def announced : Announcement :=
  { fault := false, timeValid := true, reply := false, restarted := false
    channels := vecOf 4 fun l => if l = 2 then 412 else 0, minute := 720, silenced := 4 }

/-- An image of 339 bytes: ranks 2, CLASS-COUNT 16, line 0 with CHANNEL 540 and the other lines without; its CRC
is 657C. -/
def image : List Byte :=
  List.replicate 64 2 ++ [16] ++ List.replicate 48 1 ++ [0x02, 0x1C, 1, 32, 30, 2, 40, 4]
    ++ List.replicate 216 0 ++ [0x65, 0x7C]

/-! ## Well-formedness: each check refuses an ill-formed term -/

theorem test_wf_image_length : (Instr.configurationReadEnd (.image [])).wellFormed = false := by decide
theorem test_wf_text_empty : (Instr.text (from' 5) keyA 0 []).wellFormed = false := by decide
theorem test_wf_text_long : (Instr.text (from' 5) keyA 0 (List.replicate 49 0)).wellFormed = false := by
  decide
theorem test_wf_post_no_channel : (Instr.post (from' 5) 1 0 9 []).wellFormed = false := by decide
theorem test_wf_post_nine_channels :
    (Instr.post (from' 5) 1 0 9 (List.replicate 9 412)).wellFormed = false := by decide
theorem test_wf_source_63 : (Instr.silence (from' 63) 1).wellFormed = false := by decide
theorem test_wf_ignored_claim : (Instr.ignoredFrame (from' 5) .claim).wellFormed = false := by decide
theorem test_wf_ignored_order_to_all : (Instr.ignoredFrame (toAll 5) .silence).wellFormed = false := by
  decide
theorem test_wf_ignored_delivered : (Instr.ignoredFrame (from' 5) .delivered).wellFormed = true := by decide

/-! ## No word of the table spells a command -/

theorem test_no_word : decodeTableWord 8 255 = none := rfl

/-! ## One-step checks with values from outside the model -/

/-- The check value of this CRC in its common catalogue: 29B1 for the bytes 31 to 39. -/
theorem test_crc_check_value : crc16 (byteBits [49, 50, 51, 52, 53, 54, 55, 56, 57]) = 0x29B1 := by
  decide +kernel

/-- Chapter 07's table of quality updates. -/
theorem test_quality_table : [qualityUpdate 32 0, qualityUpdate 29 2, qualityUpdate 60 7, qualityUpdate 250 7]
    = [30, 36, 85, 255] := by decide

/-- Chapter 07's worked estimates, cases A, B, D, E, F and H. -/
theorem test_estimates : [fitEstimate 172 40, fitEstimate 72 40, fitEstimate 100 40, fitEstimate 2048 255,
    fitEstimate 2048 63, fitEstimate 1 255] = [280, 117, 163, 4095, 4064, 5] := by decide

/-- R34: ship 417 answers 00417. -/
theorem test_ship_digits : shipDigits 417 = [0, 0, 4, 1, 7] := by decide

/-- Chapter 12: the nine bytes of a CALL record for ship 417 (1A1) with tag 5. -/
theorem test_call_bytes : (CycleRecord.mk 5 0 (.call 417)).bytes = [29, 0, 0, 0, 1, 0xA1, 0, 0, 0] := by
  decide +kernel

/-- Chapter 12: an outcome record's first byte, kind EDGE-IN (6) and tag 3; bits 7–6 ignored (R188). -/
theorem test_outcome_head : readOutcome 0xF3 [] = .edgeIn ∧ readTag 0xF3 = 3 := by decide

/-- Chapter 01's late outcome: a record of tag 4 taken in cycle 5 is discarded. -/
theorem test_outcome_late :
    ((after (.outcomeRecord 0 4 0 0 0 0 0) (onLine fun x => { x with cycle := cycleOf (.block [87]) })).line
      0).outcome = none := by decide +kernel

/-- R178: strap 63 becomes 62. -/
theorem test_strap_clamped : (after (.pinReset 63) card).strap = 62 := by decide +kernel

/-- R178: a whole image with a good CRC is settled; its line 0 is enabled and its other lines are not. -/
theorem test_image_read :
    (after (.configurationReadEnd (.image image)) State.reset).fault = false
      ∧ ((after (.configurationReadEnd (.image image)) State.reset).line 0).mode = .rest
      ∧ ((after (.configurationReadEnd (.image image)) State.reset).line 1).mode = .disabled := by
  decide +kernel

/-- R178: an image whose CRC does not match sets FAULT. -/
theorem test_image_bad :
    (after (.configurationReadEnd (.image (List.replicate 339 0))) State.reset).fault = true := by
  decide +kernel

theorem test_start_interval_ends :
    (after .startIntervalExpiry { card with startInterval := true }).startInterval = false := by
  decide +kernel

/-- R12: an ACTIVE line with nothing to send hands FILLER. -/
theorem test_filler_handed :
    ((after (.boundary 0) card).line 0).cycle = some ⟨0, 0, .filler⟩
      ∧ ((after (.boundary 0) card).line 0).fillerRun = 1 := by decide +kernel

/-- R14: a silenced band takes its line to SILENT at the boundary. -/
theorem test_silent_at_boundary :
    ((after (.boundary 0) { card with silenced := 4 }).line 0).mode = .silent := by decide +kernel

/-- Chapter 05's clock example: at 12:00 the time 720 falls due, and the window is PENDING. -/
theorem test_minute_opens :
    ((after .secondTimerExpiry { card with minute := 719, second := 59, timeValid := true }).line
      0).window.state = .pending := by decide +kernel

/-- Chapter 05's clock example: from 12:07 a set to 00:02 is across midnight; 1438 falls due and its mark is
cleared. -/
theorem test_set_across_midnight :
    ((after (.time (toAll 1) 2 0) { card with minute := 727, timeValid := true }).line 0).window.state
        = .pending
      ∧ (after (.time (toAll 1) 2 0) { card with minute := 727, timeValid := true }).marks[(0 : Fin 4)][(1 : Fin 8)]
        = false := by
  decide +kernel

/-- R142: a timeout is refused, and the slot is free again once its report is queued. -/
theorem test_timeout_frees :
    (after (.loadTimerExpiry keyA) (holding (telexRecord .loading))).record 7 = none := by decide +kernel

/-- R158: a window whose CLAIM was not seen counts as lost. -/
theorem test_window_lost : (after (.claimWindowExpiry keyA) (claimingCard false none)).counters.claimsLost = 1 := by
  decide +kernel

/-- R155: a line in REST of the band without traffic grades 2; line 2 is such a line of band 4. -/
theorem test_offer_claimed :
    ((after (.offer (toAll 5) 212 417 100 4 false) card).queue.map (·.frame.payload)) = [.claim keyA 2] := by
  decide +kernel

/-- R157: a lower grade is better. -/
theorem test_claim_noted :
    ((after (.claim (toAll 12) keyA 1) (claimingCard true (some ⟨3, 9⟩))).claims.map (·.best))
      = [some ⟨1, 12⟩] := by decide +kernel

/-- R163: a lower station's TAKE drops a record without a chunk. -/
theorem test_take_collision :
    (after (.takeReceived (toAll 3) keyA) (holding (telexRecord .loading))).record 7 = none := by
  decide +kernel

/-- Chapter 08's loading example: the first chunk of 48 leaves 2 pages listed and 2 reserved. -/
theorem test_text_stored :
    ((after (.text (from' 5) keyA 0 (List.replicate 48 65)) (holding (telexRecord .loading))).record 7).map
      (fun r => (r.loaded, r.nextSeq, r.pageList, r.reserved)) = some (48, 1, [3, 1], [2, 0]) := by
  decide +kernel

/-- Chapter 04's gate example: (3, 100) is accepted on lines 2 and 3. -/
theorem test_post_accepted :
    let s := after (.post (toAll 3) 100 2 40 [655, 818, 655]) card
    (s.line 2).freeQueue = [0] ∧ (s.line 3).freeQueue = [0] ∧ s.freePages.length = 2046 := by
  decide +kernel

/-- Chapter 04's gate example: (20, 7) is refused for RANGE before its rank is looked at. -/
theorem test_post_range :
    ((after (.post (toAll 20) 7 5 30 [412]) card).queue.map (·.frame.payload))
      = [.refused ⟨20, 7⟩ .range] := by decide +kernel

/-- R147: a WITHDRAW of an ON-AIR message sets its mark. -/
theorem test_withdraw_marks :
    ((after (.withdraw (from' 5) keyA) (holding (telexRecord .onAir))).record 7).map (·.withdrawMark)
      = some true := by decide +kernel

theorem test_silence_adds : (after (.silence (toAll 1) 6) { card with silenced := 1 }).silenced = 7 := by
  decide +kernel
theorem test_resume_removes : (after (.resume (toAll 1) 6) { card with silenced := 7 }).silenced = 1 := by
  decide +kernel

/-- R15: an order is held with its source; a second one is dropped. -/
theorem test_order_held :
    ((after (.startLine (toAll 1) 0) (after (.stopLine (from' 1) 0) card)).line 0).held
      = some ⟨.stop, 1⟩ := by decide +kernel

/-- R15: a DISABLED line holds no order. -/
theorem test_order_no_line :
    ((after (.patternOff (toAll 3) 1) (after (.patternOn (toAll 3) 1) card)).line 1).held = none := by
  decide +kernel

/-- R184, R22: STOPPED becomes REST, DISABLED stays. -/
theorem test_restart_modes :
    ((after (.restart (from' 1)) card).line 3).mode = .rest
      ∧ ((after (.restart (from' 1)) card).line 1).mode = .disabled := by decide +kernel

/-- R182: the ANNOUNCE of a lower station takes channel 412 from line 0. -/
theorem test_conflict : ((after (.announce (toAll 5) announced) card).line 0).mode = .disabled := by
  decide +kernel

/-- R182: a higher station's does not. -/
theorem test_no_conflict : ((after (.announce (toAll 12) announced) card).line 0).mode = .active := by
  decide +kernel

/-- R175: selectors 0 to 4 are answered; others are not. -/
theorem test_status_selectors :
    (after (.statusQuery (from' 1) 4) card).queue.length = 1
      ∧ (after (.statusQuery (from' 1) 5) card).queue = [] := by decide +kernel

theorem test_bad_frame_counted :
    (after (.badFrame .length) { card with counters := { CardCounters.zero with badFrames := 65535 } }).counters.badFrames
      = 65535 := by decide +kernel

theorem test_ignored_frame : after (.ignoredFrame (from' 5) .status) card = card := rfl

/-- R172: CLAIM goes ahead of STATUS and is the first to be sent. -/
theorem test_contention :
    ((after .contention { card with queue := enqueue ⟨63, .claim keyA 2⟩ (statuses 1) }).queue.map
      (fun e => (e.precedence, e.onWire))) = [(2, true), (7, false)] := by decide +kernel

theorem test_contention_lost :
    (after .contentionLost (after .contention { card with queue := statuses 1 })).queue = statuses 1 := by
  decide +kernel
theorem test_cut_short :
    (after .sendingCutShort (after .contention { card with queue := statuses 1 })).queue = statuses 1 := by
  decide +kernel
theorem test_sent :
    (after .sendingComplete (after .contention { card with queue := statuses 2 })).queue = statuses 1 := by
  decide +kernel

/-- Chapter 10's full queue: a STATUS offered to a full queue is discarded, a LINESTATE displaces one. -/
theorem test_full_queue :
    (({ card with queue := statuses 24 } : State).offerFrame ⟨1, .cardStatus card.cardStatus⟩).queue
        = statuses 24
      ∧ (({ card with queue := statuses 24 } : State).offerFrame ⟨1, .lineState 0 .rest .busy⟩).queue
        = ⟨⟨1, .lineState 0 .rest .busy⟩, false⟩ :: statuses 23 := by decide +kernel

/-- R144: a report waits while 17 frames are queued, and is handed at 16. -/
theorem test_report_handed :
    let s : State := { holding (telexRecord .reporting) with reports := [⟨7, .delivered⟩] }
    (after .reportHanded { s with queue := statuses 17 }).queue.length = 17
      ∧ (after .reportHanded { s with queue := statuses 16 }).queue.length = 17
      ∧ (after .reportHanded { s with queue := statuses 16 }).record 7 = none := by decide +kernel

/-- Chapter 12: the frame of a WITHDRAW of key (5, 212) from station 5, written out bit by bit: precedence 4,
source 5, kind 6, destination 9, length 3, payload 05 00 D4. -/
theorem test_withdraw_frame :
    (commandBits 4 (.withdraw (from' 5) keyA)).map (·.take 50)
      = some ([1, 0, 0, 0, 0, 0, 1, 0, 1, 0, 0, 1, 1, 0, 0, 0, 1, 0, 0, 1, 0, 0, 0, 0, 1, 1,
          0, 0, 0, 0, 0, 1, 0, 1, 0, 0, 0, 0, 0, 0, 0, 0, 1, 1, 0, 1, 0, 1, 0, 0].map (· == 1)) := by
  decide +kernel

/-! ## States and operands that meet each statement's hypotheses -/

/-- The card of the example holds no record. -/
theorem card_empty : ∀ j, card.record j = none := by decide +kernel

theorem card_no_key (k : Key) : ∀ j r, card.record j = some r → r.key ≠ k := by
  intro j r h
  rw [card_empty j] at h
  cases h

theorem card_lines_idle : ∀ l, (card.line l).circuit = none ∧ (card.line l).callList = []
    ∧ (card.line l).fillerRun = 0 ∧ (card.line l).window.lastEst = 0
    ∧ (card.line l).arbiter.turnCycles = 0 := by decide +kernel

/-- The card with the free bulletin in slot 7, READY, its part on line 0 in a state, and line 0 in a mode. -/
def airing (part : PartState) (m : Mode) : State :=
  (holding { bulletinRecord .ready with
      body := .bulletin { cls := 2, kind := .free, repeats := 1, cutCounted := false
                          parts := [⟨0, part, .times 1, false, 0⟩] } }).modLine 0 fun x =>
    { x with mode := m, freeQueue := [7] }

/-- The card with a LINKED circuit whose BLOCK of the message in slot 7, marked or not, was answered GOOD. -/
def linkedWith (mark : Bool) : State :=
  (holding { telexRecord .onAir with withdrawMark := mark }).modLine 0 fun x =>
    { x with
      cycle := cycleOf (.block [87, 73, 78, 68]), outcome := some .good
      circuit := some { circuit .linked with current := some 7, block := some ⟨1, [87, 73, 78, 68]⟩, k := 2 }
      callList := [⟨417, 2, [7], 0, 0, false, none⟩] }

abbrev linkedCard : State := linkedWith false

theorem linked_placed (mark : Bool) : (linkedWith mark).messagesPlaced := by
  have others : ∀ l : LineId, l ≠ 0 →
      ((linkedWith mark).line l).callList = [] ∧ ((linkedWith mark).line l).circuit = none := by
    revert mark
    decide +kernel
  have calls : ((linkedWith mark).line 0).callList = [⟨417, 2, [7], 0, 0, false, none⟩] := by
    revert mark
    decide +kernel
  have line : ((linkedWith mark).line 0).circuit
      = some { circuit .linked with current := some 7, block := some ⟨1, [87, 73, 78, 68]⟩, k := 2 } := by
    revert mark
    decide +kernel
  have record : (linkedWith mark).record 7 = some { telexRecord .onAir with withdrawMark := mark } := by
    revert mark
    decide +kernel
  refine ⟨fun l e he => ?_, fun l c i hc hi => ?_, fun w hw => ?_⟩
  · by_cases hl : l = 0
    · subst hl
      rw [calls, List.mem_singleton] at he
      subst he
      refine ⟨by decide, fun i hi => ?_⟩
      rw [List.mem_singleton] at hi
      subst hi
      exact ⟨_, _, record, rfl, rfl, rfl, .inr (.inr rfl)⟩
    · rw [(others l hl).1] at he
      cases he
  · by_cases hl : l = 0
    · subst hl
      rw [line] at hc
      cases hc
      cases hi
      exact ⟨by revert mark; decide +kernel, .inl rfl, _,
        by rw [calls]; exact List.mem_singleton.mpr rfl, rfl, by decide⟩
    · rw [(others l hl).2] at hc
      cases hc
  · cases hw

theorem linked_ships (mark : Bool) : (linkedWith mark).shipsOnce := by
  have others : ∀ l : LineId, l ≠ 0 → ((linkedWith mark).line l).circuit = none := by
    revert mark
    decide +kernel
  have ship : (((linkedWith mark).line 0).circuit.map (·.ship)) = some 417 := by
    revert mark
    decide +kernel
  have held : ⟨417, 2, [7], 0, 0, false, none⟩ ∈ ((linkedWith mark).line 0).callList := by
    revert mark
    decide +kernel
  refine ⟨by revert mark; decide +kernel, fun l c h => ?_, by revert mark; decide +kernel⟩
  by_cases hl : l = 0
  · subst hl
    rw [h] at ship
    exact ⟨_, held, (Option.some.inj ship).symm⟩
  · rw [others l hl] at h
    cases h

theorem hyp_StepRunsFrontCommand : State.reset.pending = [] := rfl

theorem hyp_OnlyPinResetStartsAgain :
    exec .startIntervalExpiry card = .next { card with startInterval := false }
      ∧ card.phase = .settled ∧ (∀ pins, Instr.startIntervalExpiry ≠ .pinReset pins)
      ∧ (card.line 1).mode = .disabled :=
  ⟨rfl, rfl, fun _ => by simp, by decide +kernel⟩

theorem image_good : imageGood image = true := by decide +kernel

theorem hyp_ReadEndSettlesConfiguration :
    State.reset.phase = .reading ∧ State.reset.fault = false
      ∧ settledConfig (.image image) = some (readImage image) ∧ State.reset.queue.length < 24 :=
  ⟨rfl, rfl, by simp [settledConfig, image_good], by decide⟩

theorem hyp_FailedReadSetsFault :
    State.reset.phase = .reading ∧ settledConfig .noAnswer = none ∧ State.reset.queue.length < 24 :=
  ⟨rfl, rfl, by decide⟩

/-- Line 2 in REST while the interval runs; without it, in REST with a READY free part and without content, in
KEYING after one and two KEYUP, and ACTIVE with nothing to send after no FILLER and after 8. -/
theorem hyp_StartIntervalHoldsRest :
    (let s : State := { card with startInterval := true }
     s.phase = .settled ∧ s.startInterval = true ∧ (s.line 2).mode = .rest ∧ (s.line 2).held = none
        ∧ s.silencedLine 2 = false)
      ∧ (let s := airing .queued .rest
         (s.line 0).held = none ∧ s.silencedLine 0 = false ∧ (s.line 0).mode = .rest ∧ s.startInterval = false
          ∧ (7 ∈ ((s.worked 0).line 0).freeQueue ∧ (s.worked 0).isReady 7 = true
            ∧ ((s.worked 0).part? 7 0).map (·.state) = some .queued))
      ∧ (let w := card.worked 2
         (w.line 2).circuit = none ∧ (w.line 2).window.state = .closed ∧ (w.line 2).callList = []
          ∧ (w.line 2).cutInQueue ++ (w.line 2).freeQueue = [])
      ∧ (∀ n ∈ [1, 2], ((onLine fun x => { x with mode := .keying, keyupCount := n }).line 0).keyupCount = n)
      ∧ ∀ n ∈ [0, 8],
        let s := onLine fun x => { x with fillerRun := n }
        (s.line 0).mode = .active ∧ (s.line 0).fillerRun = n ∧ (s.worked 0).bulletinOnAir 0 = none
          ∧ ((s.worked 0).line 0).window.noticeStep = 0 := by decide +kernel

/-- A silence answer and a held order wait. -/
theorem hyp_BoundaryHandsRecord :
    let s := onLine fun x => { x with silenceAnswer := some 1, held := some ⟨.stop, 3⟩ }
    s.phase = .settled ∧ (s.line 0).silenceAnswer = some 1 ∧ (s.line 0).held = some ⟨.stop, 3⟩
      ∧ s.queue.length < 23 := by decide +kernel

/-- Tags: none before the first cycle, and 7 goes on to 0. -/
theorem hyp_BoundaryHandsRecord_tags :
    (card.line 0).cycle = none
      ∧ ((onLine fun x => { x with cycle := some ⟨7, 0, .filler⟩ }).line 0).cycle = some ⟨7, 0, .filler⟩ := by
  decide +kernel

theorem hyp_BoundaryWorksOnOneLine : (2 : LineId) ≠ 0 ∧ linkedCard.messagesPlaced := ⟨by decide, linked_placed false⟩

/-- An ACTIVE line of a silenced band, a SILENT one, and a SILENT one whose band has left the set, with content
and without. -/
theorem hyp_SilencedLineFallsSilent :
    (let s : State := { card with silenced := 4 }
     s.phase = .settled ∧ s.silencedLine 0 = true ∧ (s.line 0).held = none ∧ (s.line 0).mode = .active)
      ∧ (let s : State := { airing .queued .silent with silenced := 4 }
         s.silencedLine 0 = true ∧ (s.line 0).mode = .silent)
      ∧ (let s := airing .queued .silent
         s.silencedLine 0 = false ∧ s.startInterval = false ∧ (s.worked 0).hasContent 0 = true)
      ∧ ((onLine fun x => { x with mode := .silent }).worked 0).hasContent 0 = false := by decide +kernel

theorem hyp_DisabledLineHandsUnkeyed :
    card.phase = .settled ∧ (card.line 1).mode = .disabled ∧ (card.line 1).circuit = none
      ∧ (card.line 1).callList = [] := by decide +kernel

/-- STOP LINE on an ACTIVE line and on a STOPPED one; START LINE on a STOPPED line, its band silenced, with
content and without, and on an ACTIVE one. -/
theorem hyp_StopLineStopsAtBoundary :
    (let s := onLine fun x => { x with held := some ⟨.stop, 1⟩ }
     s.phase = .settled ∧ (s.line 0).mode ≠ .disabled ∧ (s.line 0).mode ≠ .stopped
        ∧ (s.line 0).held = some ⟨.stop, 1⟩ ∧ s.queue.length < 23)
      ∧ (let s := card.modLine 3 fun x => { x with held := some ⟨.stop, 1⟩ }
         (s.line 3).mode = .stopped ∧ (s.line 3).held = some ⟨.stop, 1⟩)
      ∧ (let s := (airing .queued .stopped).modLine 0 fun x => { x with held := some ⟨.start, 1⟩ }
         (s.line 0).mode = .stopped ∧ (s.line 0).held = some ⟨.start, 1⟩ ∧ s.silencedLine 0 = false
          ∧ s.startInterval = false ∧ (s.worked 0).hasContent 0 = true
          ∧ ({ s with silenced := 4 } : State).silencedLine 0 = true)
      ∧ ((card.modLine 3 fun x => { x with held := some ⟨.start, 1⟩ }).worked 3).hasContent 3 = false
      ∧ ((onLine fun x => { x with held := some ⟨.start, 1⟩ }).line 0).mode ≠ .stopped := by decide +kernel

/-- STOP LINE on a line with a free bulletin on air. -/
theorem hyp_StopLineStopsAtBoundary_onAir :
    let s := (airing .onAir .active).modLine 0 fun x => { x with held := some ⟨.stop, 1⟩ }
    s.phase = .settled ∧ (s.line 0).held = some ⟨.stop, 1⟩ ∧ (s.line 0).mode = .active ∧ s.onePartOnAir
      ∧ s.bulletinOnAir 0 = some 7 := by
  unfold State.onePartOnAir
  decide +kernel

/-- PATTERN ON in REST, from ACTIVE, from SILENT, with a PENDING window, and with a circuit; PATTERN OFF in
PATTERN, with content and without, and in ACTIVE. -/
theorem hyp_PatternOnKeysRestingLine :
    (let s := card.modLine 2 fun x => { x with held := some ⟨.patternOn, 3⟩ }
     s.phase = .settled ∧ (s.line 2).mode = .rest ∧ (s.line 2).held = some ⟨.patternOn, 3⟩
        ∧ s.silencedLine 2 = false ∧ (s.line 2).circuit = none ∧ (s.line 2).window.state = .closed
        ∧ s.bulletinOnAir 2 = none ∧ (s.line 2).cycle = none ∧ s.queue.length < 23)
      ∧ (∀ m ∈ [Mode.rest, .active, .silent], ∀ w ∈ [WindowState.closed, .pending],
        let s := onLine fun x =>
          { x with mode := m, held := some ⟨.patternOn, 3⟩, window := { x.window with state := w } }
        s.silencedLine 0 = false ∧ (s.line 0).mode = m ∧ ((s.worked 0).line 0).circuit = none
          ∧ (s.worked 0).bulletinOnAir 0 = none
          ∧ (((s.worked 0).line 0).window.state = w ∨ m = .active))
      ∧ (let s := onLine fun x =>
          { x with held := some ⟨.patternOn, 3⟩, circuit := some (circuit .linked) }
         ((s.worked 0).line 0).circuit ≠ none)
      ∧ (let s := (airing .queued .pattern).modLine 0 fun x => { x with held := some ⟨.patternOff, 3⟩ }
         (s.line 0).mode = .pattern ∧ s.silencedLine 0 = false ∧ s.startInterval = false
          ∧ (s.worked 0).hasContent 0 = true)
      ∧ ((onLine fun x => { x with mode := .pattern }).worked 0).hasContent 0 = false
      ∧ ((onLine fun x => { x with held := some ⟨.patternOff, 3⟩ }).line 0).mode ≠ .pattern := by
  decide +kernel

/-- Kept (tag 5, ALIGN, EDGE-IN), and discarded for its tag. -/
theorem hyp_OutcomeRecordKeptOnce :
    let s := onLine fun x => { x with cycle := cycleOf .align }
    ((s.line 0).cycle = some ⟨5, 0, .align⟩ ∧ (5 : Fin 8).val = (53 : Byte).toNat % 8
      ∧ Cycle.align.expectsAnswer = true ∧ (s.line 0).outcome = none)
      ∧ (5 : Fin 8).val ≠ (52 : Byte).toNat % 8 := by decide +kernel

/-- The card with a record in slot 7, and on line 0 a circuit, the ended cycle, its outcome, and an entry. -/
def operatingOn (r : Record) (c : Circuit) (ended : Cycle) (o : Option Outcome) (e : Entry) : State :=
  (holding r).modLine 0 fun x =>
    { x with cycle := cycleOf ended, outcome := o, circuit := some c, callList := [e] }

/-- The same with the READY message of ship 417. -/
def operating (c : Circuit) (ended : Cycle) (o : Option Outcome) (e : Entry) : State :=
  operatingOn (telexRecord .ready) c ended o e

/-- The entry of ship 417 with its one message. -/
def entry : Entry := ⟨417, 2, [7], 0, 0, false, none⟩

/-- What a silence meets on a circuit: a REPHASING one with its message on air, unmarked and marked, and CLEARING
ones, ordinary and LOST. -/
theorem hyp_SilencedLineFallsSilent_circuit :
    (∀ mark : Bool,
        let s := { operatingOn { telexRecord .onAir with withdrawMark := mark }
          { circuit .rephasing with current := some 7 } .rephase none entry with silenced := 4 }
        ((s.worked 0).line 0).circuit = some { circuit .rephasing with current := some 7 }
          ∧ (s.worked 0).isOnAir 7 = true ∧ (s.worked 0).isMarked 7 = mark)
      ∧ ∀ cause ∈ [ClearCause.ordinary, .lost],
        let s := operating { circuit .clearing with clearCause := cause } .filler none entry
        ((s.worked 0).line 0).circuit = some { circuit .clearing with clearCause := cause }
          ∧ ((s.worked 0).line 0).entry? 417 ≠ none := by decide +kernel

/-- A CALL answered; the 9th and the 10th unanswered. -/
theorem hyp_CallAnswerBeginsSearch :
    (let s := operating (circuit .calling) (.call 417) (some .callAnswer) entry
     s.phase = .settled ∧ (s.line 0).mode = .active ∧ s.silencedLine 0 = false ∧ (s.line 0).held = none
        ∧ (s.line 0).circuit = some (circuit .calling) ∧ (circuit .calling).state = .calling
        ∧ (s.line 0).cycle = some ⟨5, 0, .call 417⟩ ∧ (s.line 0).outcome = some .callAnswer
        ∧ (s.line 0).entry? 417 = some entry)
      ∧ ∀ n ∈ [9, 10],
        let s := operating { circuit .calling with callCycles := n } (.call 417) none entry
        (s.line 0).circuit = some { circuit .calling with callCycles := n } ∧ (s.line 0).ended = some (.call 417)
          ∧ (s.line 0).outcome ≠ some .callAnswer ∧ (s.line 0).entry? 417 = some entry
          ∧ entry.attempts + 1 < 3 ∧ entry.messages ≠ [] ∧ entry.retryHold < 60 := by decide +kernel

/-- ALIGN at 40 and at 44, with EDGE-IN and without; IDENT with ship 417's digits, with others, and unanswered
after one try and two. -/
theorem hyp_CallAnswerBeginsSearch_search :
    (∀ n ∈ [40, 44], ∀ o ∈ [some Outcome.edgeIn, none],
        let s := operating { circuit .aligning with trialOffset := n } .align o entry
        (s.line 0).circuit = some { circuit .aligning with trialOffset := n } ∧ (s.line 0).ended = some .align
          ∧ (s.line 0).outcome = o)
      ∧ ([0, 0, 4, 1, 7] : List Byte).map BitVec.toNat
          = [417 / 10000 % 10, 417 / 1000 % 10, 417 / 100 % 10, 417 / 10 % 10, 417 % 10]
      ∧ (∀ d ∈ ([[0, 0, 4, 1, 7], [0, 0, 4, 1, 8]] : List (List Byte)),
        let s := operating { circuit .identifying with identTries := 1 } .ident (some (.ident d)) entry
        (s.line 0).ended = some .ident ∧ (s.line 0).outcome = some (.ident d))
      ∧ ∀ n ∈ [1, 2],
        let s := operating { circuit .identifying with identTries := n } .ident none entry
        (s.line 0).circuit = some { circuit .identifying with identTries := n } ∧ (s.line 0).outcome = none := by
  decide +kernel

/-- A first and a second CLEAR, for each cause; the entry empty, recalled, and neither, on its third attempt and
before; an emptied entry in each state; a line without a circuit. -/
theorem hyp_CallAnswerBeginsSearch_clear :
    (∀ n ∈ [1, 2], ∀ cause ∈ [ClearCause.ordinary, .lost, .wrongStation],
        ∀ e ∈ [{ entry with messages := [] }, { entry with recalled := true }, entry,
          { entry with recalled := true, attempts := 2 }],
        let c := { circuit .clearing with clearCycles := n, clearCause := cause }
        let s := operating c .clear none e
        (s.line 0).circuit = some c ∧ (s.line 0).ended = some .clear ∧ (s.line 0).entry? 417 = some e)
      ∧ (∀ st ∈ [CircuitState.calling, .aligning, .identifying, .linked, .parked, .rephasing, .clearing],
        let s := operating (circuit st) .filler none { entry with messages := [] }
        (s.line 0).circuit = some (circuit st)
          ∧ (s.line 0).entry? 417 = some { entry with messages := [] })
      ∧ card.shipsHeld = [] ∧ (card.line 0).circuit = none := by decide +kernel

theorem card_ships : card.shipsOnce := by
  refine ⟨by decide +kernel, fun l c h => ?_, by decide +kernel⟩
  have := (card_lines_idle l).1.symm.trans h
  cases this

theorem hyp_QualityUpdatedAtGoodBlock :
    let c := { circuit .linked with current := some 7, block := some ⟨1, [87, 73, 78, 68]⟩, k := 2 }
    linkedCard.phase = .settled ∧ (linkedCard.line 0).circuit = some c ∧ c.state = .linked
      ∧ (linkedCard.line 0).cycle = some ⟨5, 0, .block [87, 73, 78, 68]⟩
      ∧ (linkedCard.line 0).outcome = some .good ∧ (linkedCard.record 7).isSome := by decide +kernel

/-- A circuit with four characters of the message in slot 7 in hand. -/
def sendingBlock (state : CircuitState) : Circuit :=
  { circuit state with current := some 7, block := some ⟨1, [87, 73, 78, 68]⟩, k := 7 }

/-- The message in slot 7 of 100 characters and of 4, with clear-after, alone in its entry and not; the cut notice;
each for a good answer and a bad one, at a fail run of 2 and of 3, with 2 rephases and with 3. -/
theorem hyp_QualityUpdatedAtGoodBlock_settled :
    (∀ o ∈ [some Outcome.good, none], ∀ cut ∈ [false, true], ∀ n ∈ [4, 100],
        ∀ e ∈ [entry, { entry with messages := [7, 8] }],
        let r : Record := { telexRecord .onAir with
          n := n, body := .telex ⟨417, 2, true, 0, some 0⟩ }
        let c := { sendingBlock .linked with cut := cut }
        let s := operatingOn r c (.block [87, 73, 78, 68]) o e
        (s.line 0).circuit = some c ∧ (s.line 0).ended = some (.block [87, 73, 78, 68])
          ∧ (s.line 0).outcome = o ∧ s.record 7 = some r ∧ (s.line 0).entry? 417 = some e)
      ∧ ∀ fails ∈ [2, 3], ∀ rephases ∈ [2, 3], ∀ mark ∈ [false, true],
        let r : Record := { telexRecord .onAir with withdrawMark := mark }
        let c := { sendingBlock .linked with failRun := fails, rephaseCount := rephases }
        let s := operatingOn r c .idleblock none entry
        (s.line 0).circuit = some c ∧ (s.line 0).ended = some .idleblock ∧ (s.line 0).outcome ≠ some .good
          ∧ s.record 7 = some r ∧ r.state = .onAir := by decide +kernel

/-- A first and a second REPHASE; the ALIGN of a rephase at 40 and at 44, with EDGE-IN and without. -/
theorem hyp_QualityUpdatedAtGoodBlock_rephase :
    (∀ n ∈ [1, 2],
        let c := { sendingBlock .rephasing with rephaseCycles := n }
        let s := operatingOn (telexRecord .onAir) c .rephase none entry
        (s.line 0).circuit = some c ∧ (s.line 0).ended = some .rephase)
      ∧ ∀ n ∈ [40, 44], ∀ o ∈ [some Outcome.edgeIn, none],
        let c := { sendingBlock .rephasing with trialOffset := n, rephaseCycles := 2 }
        let s := operatingOn (telexRecord .onAir) c .align o entry
        (s.line 0).circuit = some c ∧ (s.line 0).ended = some .align ∧ (s.line 0).outcome = o := by
  decide +kernel

/-- Chapter 07: a circuit at q = 40 whose block goes GOOD after two repeats takes q to 46. -/
theorem test_quality_at_boundary :
    ((after (.boundary 0) linkedCard).line 0).circuit.map (fun c => (c.q, c.k)) = some (46, 0) := by
  decide +kernel

theorem hyp_FitEstimateSaturates :
    (2016 ≤ 2048 ∧ 66 ≤ 255 ∧ 2016 + (2016 * 66 + 63) / 64 = 4095)
      ∧ (2048 ≤ 2048 ∧ 64 ≤ 255 ∧ 2048 + (2048 * 64 + 63) / 64 = 4096) := by decide

/-- A window that opens in ACTIVE and at the end of KEYING, without a test; with one that defers (41 cycles for 25
blocks at q 40, GRACE 120) and one that does not (407 for 250); a deferral at 118 and at 119; a notice run after
three NOTICE and after four, and a unit's end in a B turn, with a part left and with none. -/
theorem hyp_FitEstimateSaturates_window :
    (∀ m ∈ [Mode.active, .keying],
        let s := onLine fun x => { x with mode := m, keyupCount := 2, window := { x.window with state := .pending } }
        (s.line 0).window.state = .pending ∧ (s.line 0).mode = m ∧ (s.line 0).keyupCount = 2
          ∧ (s.line 0).circuit = none)
      ∧ (∀ n ∈ [100, 1000],
        let r : Record := { telexRecord .onAir with n := n }
        let s := (operatingOn r (sendingBlock .linked) .keep none entry).modWindow 0 fun w =>
          { w with state := .pending }
        (s.line 0).circuit = some (sendingBlock .linked) ∧ s.record 7 = some r ∧ r.state = .onAir
          ∧ (s.line 0).window.state = .pending ∧ (s.line 0).mode = .active)
      ∧ fitEstimate 25 40 = 41 ∧ fitEstimate 250 40 = 407 ∧ (card.lineConfig 0).grace = 120
      ∧ (∀ n ∈ [118, 119],
        let w := ((onLine fun x => { x with
          window := { x.window with state := .openDeferred, deferredCycles := n } }).line 0).window
        w.state = .openDeferred ∧ w.deferredCycles = n)
      ∧ ∀ n ∈ [3, 4],
        let s := (airing .queued .active).modLine 0 fun x =>
          { x with cycle := cycleOf .notice, windowQueue := [7], freeQueue := []
                   window := { x.window with state := .isOpen, noticeStep := n }
                   arbiter := { x.arbiter with turn := .bulletin } }
        (s.line 0).ended = some .notice ∧ (s.line 0).window.noticeStep = n ∧ (s.line 0).window.state = .isOpen
          ∧ s.askWindow 0 = .part 7 ∧ (s.modLine 0 fun x => { x with windowQueue := [] }).askWindow 0 = .notice := by
  decide +kernel

theorem hyp_LineChosenByBacklog :
    card.chooseLine 417 2 = some 0 ∧ card.chooseLine 417 4 = some 2 ∧ card.chooseLine 417 7 = none
      ∧ (onLine fun x => { x with callList := [⟨9, 2, [], 0, 0, false, none⟩] }).chooseLine 9 4 = some 0
      ∧ (onLine fun x => { x with circuit := some (circuit .linked) }).chooseLine 417 4 = some 0
      ∧ (card.modLine 2 fun x => { x with mode := .stopped }).chooseLine 417 4 = some 2 := by
  decide +kernel

/-- A second, and a minute with a window time that falls due on line 0 and none on line 2. -/
theorem hyp_SecondTimerCounts :
    (card.phase = .settled ∧ card.second.val < 59)
      ∧ (let s : State := { card with minute := 719, second := 59, timeValid := true }
         s.phase = .settled ∧ s.second = 59 ∧ s.timeValid = true
          ∧ (s.lineConfig 0).windowTimes[(0 : Fin 8)] = (s.minute.val + 1) % 1440
          ∧ s.marks[(0 : Fin 4)][(0 : Fin 8)] = false
          ∧ ∀ i : Fin 8, (s.lineConfig 2).windowTimes[i] ≠ 720) := by decide +kernel

theorem hyp_FirstTimeSetsClock :
    card.reception .time (toAll 1) 1 true = .taken ∧ card.timeValid = false
      ∧ ((1440 : Fin 2048).val ≥ 1440 ∧ (60 : Fin 64).val ≥ 60)
      ∧ (1439 : Fin 2048).val < 1440 ∧ (59 : Fin 64).val < 60 := by decide +kernel

/-- A forward set over 720, a backward set by 10, and a set across midnight by 11. -/
theorem hyp_TimeSetDoesDueWork :
    let s : State := { card with minute := 719, timeValid := true }
    s.reception .time (toAll 1) 1 true = .taken ∧ s.timeValid = true
      ∧ (s.minute.val ≤ 720 ∧ s.minute.val < (s.lineConfig 0).windowTimes[(0 : Fin 8)]
        ∧ s.marks[(0 : Fin 4)][(0 : Fin 8)] = false)
      ∧ (709 < s.minute.val ∧ ¬ 10 < s.minute.val - 709)
      ∧ (708 < s.minute.val ∧ 10 < s.minute.val - 708
        ∧ s.minute.val < (s.lineConfig 0).windowTimes[(1 : Fin 8)]
        ∧ (s.lineConfig 0).windowTimes[(1 : Fin 8)] ≤ 1439) := by decide +kernel

/-- Each case of the grade is met by some card. -/
theorem hyp_OfferGraded :
    ((onLine fun x => { x with circuit := some (circuit .parked) }).line 0).circuit = some (circuit .parked)
      ∧ ((onLine fun x => { x with callList := [⟨9, 2, [], 0, 0, false, none⟩] }).line 0).callList
        = [⟨9, 2, [], 0, 0, false, none⟩]
      ∧ ((card.lineConfig 2).band = 4 ∧ (card.line 2).circuit = none ∧ (card.line 2).callList = []
        ∧ (card.line 2).mode = .rest)
      ∧ ∀ l, (card.lineConfig l).band ≠ 5 := by decide +kernel

theorem hyp_OfferGivesClaim :
    card.reception .offer (toAll 5) 5 true = .taken
      ∧ (∀ j r, card.record j = some r → r.key ≠ ⟨5, 212⟩)
      ∧ ((100 : Fin 8192).val ≠ 0 ∧ 1 ≤ (99999 : Fin 131072).val ∧ (99999 : Fin 131072).val ≤ 99999)
      ∧ ((card.lineConfig 2).band = 4 ∧ (card.line 2).mode ≠ .disabled ∧ (card.line 2).mode ≠ .stopped)
      ∧ card.claims.length < 8
      ∧ (card.claims.filter (·.needsEntry)).length + card.entriesUsed < 32
      ∧ card.record 0 = none ∧ (∀ j < (0 : Slot), card.record j ≠ none)
      ∧ (100 + 31) / 32 ≤ card.freePages.length ∧ card.queue.length < 24 :=
  ⟨by decide +kernel, card_no_key _, by decide, by decide +kernel, by decide, by decide +kernel,
    card_empty 0, fun j h => absurd h (Fin.not_lt_zero j), by decide +kernel, by decide⟩

/-- An OFFER with n 0, one of a READY key without a waiting note, and one of a REPORTING key. -/
theorem hyp_OfferWithoutClaim :
    (card.reception .offer (toAll 5) 5 true = .taken ∧ (∀ j r, card.record j = some r → r.key ≠ ⟨5, 212⟩)
        ∧ (0 : Fin 8192).val = 0)
      ∧ ((holding (telexRecord .ready)).reception .offer (toAll 5) 5 true = .taken
        ∧ (holding (telexRecord .ready)).recordUnder keyA = some (7, telexRecord .ready)
        ∧ (telexRecord .ready).takeWaiting = false ∧ (holding (telexRecord .ready)).queue.length < 24)
      ∧ (holding (telexRecord .reporting)).recordUnder keyA = some (7, telexRecord .reporting) :=
  ⟨⟨by decide +kernel, card_no_key _, rfl⟩, by decide +kernel, by decide +kernel⟩

theorem hyp_ClaimNotedInWindow :
    (claimingCard false (some ⟨3, 9⟩)).reception .claim (toAll 12) 12 true = .taken
      ∧ (claimingCard false (some ⟨3, 9⟩)).claims[0]? = some ⟨keyA, 7, 3, false, some ⟨3, 9⟩, true⟩ := by
  decide +kernel

/-- A window lost to station 3, and one whose own CLAIM was not seen. -/
theorem hyp_WindowLostAtExpiry :
    ((claimingCard true (some ⟨1, 3⟩)).claims.find? (fun v => v.key = keyA)
        = some ⟨keyA, 7, 3, true, some ⟨1, 3⟩, true⟩ ∧ (3 : Station) ≠ card.strap)
      ∧ ((claimingCard false none).claims.find? (fun v => v.key = keyA)
        = some ⟨keyA, 7, 3, false, none, true⟩ ∧ (claimingCard false none).reports = []) := by
  decide +kernel

/-- A window won; the ship has no entry, and has one. -/
theorem hyp_WindowWonAtExpiry :
    let s := claimingCard true (some ⟨3, 9⟩)
    s.claims.find? (fun v => v.key = keyA) = some ⟨keyA, 7, 3, true, some ⟨3, 9⟩, true⟩
      ∧ s.strap = 9 ∧ s.record 7 = some (telexRecord .claiming) ∧ s.chooseLine 417 2 = some 0
      ∧ s.queue.length < 24 ∧ s.entriesUsed < 32 ∧ (s.line 0).entry? 417 = none
      ∧ ((s.modLine 0 fun x => { x with callList := [⟨417, 2, [], 0, 0, false, none⟩] }).line 0).entry? 417
        ≠ none := by decide +kernel

/-- A window won with no line left for the band, and with the pool of entries full. -/
theorem hyp_WindowWonAtExpiry_abandoned :
    let s := claimingCard true (some ⟨3, 9⟩)
    ({ s with lines := s.lines.map fun x => { x with mode := .disabled } } : State).chooseLine 417 2 = none
      ∧ (let u := s.modLine 0 fun x =>
          { x with callList := List.replicate 32 ⟨1, 2, [], 0, 0, false, none⟩ }
         u.chooseLine 417 2 = some 0 ∧ (u.line 0).entry? 417 = none ∧ 32 ≤ u.entriesUsed) := by
  decide +kernel

/-- The four clauses: the echo, a READY record, a lower station's TAKE, and an open window. -/
theorem hyp_TakeActsByRecord :
    ((holding (telexRecord .loading)).reception .take (toAll 9) 9 true = .taken
        ∧ (holding (telexRecord .loading)).recordUnder keyA = some (7, telexRecord .loading))
      ∧ (holding (telexRecord .ready)).recordUnder keyA = some (7, telexRecord .ready)
      ∧ ((holding (telexRecord .loading)).reception .take (toAll 8) 8 true = .taken
        ∧ (8 : Station) < card.strap ∧ (telexRecord .loading).nextSeq = 0)
      ∧ ((claimingCard true none).recordUnder keyA = some (7, telexRecord .claiming)
        ∧ (claimingCard true none).reports = []
        ∧ (claimingCard true none).claims.find? (fun v => v.key = keyA)
          = some ⟨keyA, 7, 3, true, none, true⟩) := by decide +kernel

/-- The last chunk of chapter 08's example: 96 loaded, 4 to come. -/
theorem hyp_TextChunkStored :
    let r := { telexRecord .loading with loaded := 96, nextSeq := 2, pageList := [3, 1, 2], reserved := [0] }
    (holding r).reception .text (from' 5) 5 true = .taken
      ∧ (holding r).recordUnder keyA = some (7, r) ∧ r.state = .loading ∧ (from' 5).dest = card.strap
      ∧ (2 : Fin 256).val = r.nextSeq ∧ [65, 66, 67, (68 : Byte)].length = min 48 (r.n - 48 * r.nextSeq)
      ∧ Memory.wf (holding r).text = true ∧ (r.pageList ++ r.reserved).Nodup
      ∧ r.pageList.length = (r.loaded + 31) / 32
      ∧ (r.loaded + 4 + 31) / 32 ≤ r.pageList.length + r.reserved.length := by decide +kernel

/-- The timer, an earlier chunk, a gap and a short chunk, and a chunk to another station. -/
theorem hyp_LoadingRefusedOrDropped :
    let r := { telexRecord .loading with loaded := 48, nextSeq := 1 }
    (holding r).recordUnder keyA = some (7, r) ∧ r.state = .loading ∧ (holding r).reports = []
      ∧ r.loadTimer = true ∧ (holding r).reception .text (from' 5) 5 true = .taken
      ∧ (from' 5).dest = card.strap ∧ (0 : Fin 256).val < r.nextSeq ∧ r.nextSeq < (2 : Fin 256).val
      ∧ (List.replicate 40 (65 : Byte)).length ≠ min 48 (r.n - 48 * r.nextSeq)
      ∧ (holding r).reception .text ⟨5, 17⟩ 5 true = .taken := by decide +kernel

/-- A READY message, an ON-AIR one, a READY bulletin, a CLAIMING one and a REPORTING one. -/
theorem hyp_WithdrawActsByState :
    ((holding (telexRecord .ready)).reception .withdraw (from' 5) 5 true = .taken
        ∧ (holding (telexRecord .ready)).recordUnder keyA = some (7, telexRecord .ready)
        ∧ (holding (telexRecord .ready)).reports = [])
      ∧ (holding (telexRecord .onAir)).recordUnder keyA = some (7, telexRecord .onAir)
      ∧ (holding (bulletinRecord .ready)).recordUnder keyA = some (7, bulletinRecord .ready)
      ∧ ((claimingCard true none).recordUnder keyA = some (7, telexRecord .claiming)
        ∧ (claimingCard true none).claims.find? (fun v => v.key = keyA)
          = some ⟨keyA, 7, 3, true, none, true⟩)
      ∧ (holding (telexRecord .reporting)).recordUnder keyA = some (7, telexRecord .reporting) := by
  decide +kernel

/-- 16 frames queued and 17. -/
theorem hyp_OldestReportHanded :
    let s : State := { holding (telexRecord .reporting) with reports := [⟨7, .delivered⟩] }
    s.reports = [⟨7, .delivered⟩] ∧ s.record 7 = some (telexRecord .reporting)
      ∧ ({ s with queue := statuses 16 } : State).queue.length ≤ 16
      ∧ 16 < ({ s with queue := statuses 17 } : State).queue.length := by decide +kernel

/-- Chapter 04's gate example, one post for each refusal, and a full store. -/
theorem hyp_PostRefusedInGateOrder :
    (∀ source ∈ [(1 : Station), 3, 20], card.reception .post (toAll source) source true = .taken)
      ∧ card.queue.length < 24
      ∧ ((card.lineConfig 0).channel = 412 ∧ (card.line 0).mode ≠ .disabled)
      ∧ (∀ l, (card.lineConfig l).channel ≠ 100)
      ∧ card.config.classCount ≤ (5 : Fin 16).val
      ∧ card.config.classes[(3 : Fin 16)].kind = .closed
      ∧ card.config.classes[(0 : Fin 16)].maxRank < card.config.rankMap[(3 : Station)]
      ∧ ¬ card.config.classes[(0 : Fin 16)].maxRank < card.config.rankMap[(1 : Station)]
      ∧ ({ card with freePages := [5] } : State).freePages.length < (60 + 31) / 32
      ∧ (holding (telexRecord .ready)).record 7 = some (telexRecord .ready) := by decide +kernel

/-- Chapter 04's gate example: (1, 56) accepted as a cut-in, (3, 100) as a free bulletin; class 1 takes a window
bulletin of station 3. -/
theorem hyp_PostAccepted :
    (card.reception .post (toAll 1) 1 true = .taken ∧ card.reception .post (toAll 3) 3 true = .taken)
      ∧ (∀ j r, card.record j = some r → r.key ≠ ⟨1, 56⟩)
      ∧ card.targetLines [412, 655] = [0, 2]
      ∧ (∀ c ∈ [(0 : Fin 16), 1, 2], c.val < card.config.classCount)
      ∧ (card.config.classes[(0 : Fin 16)].kind = .cutIn ∧ card.config.classes[(1 : Fin 16)].kind = .window
        ∧ card.config.classes[(2 : Fin 16)].kind = .free)
      ∧ card.config.rankMap[(1 : Station)] ≤ card.config.classes[(0 : Fin 16)].maxRank
      ∧ card.config.rankMap[(3 : Station)] ≤ card.config.classes[(1 : Fin 16)].maxRank
      ∧ card.record 0 = none ∧ (∀ j < (0 : Slot), card.record j ≠ none)
      ∧ (60 + 31) / 32 ≤ card.freePages.length :=
  ⟨by decide +kernel, card_no_key _, by decide +kernel, by decide +kernel, by decide +kernel,
    by decide +kernel, by decide +kernel, card_empty 0, fun j h => absurd h (Fin.not_lt_zero j),
    by decide +kernel⟩

theorem hyp_OnAirFormCarriesText :
    (∃ b, (bulletinRecord .ready).body = .bulletin b) ∧ 3 ≤ 3 ∧ 3 ≤ (100 + 5) / 6 + 2 := ⟨⟨_, rfl⟩, by decide⟩

/-- A BEND that ends: with one sending left, two, and without limit; alone, beside a DONE part, and beside a QUEUED
one; of each class type in its queue. A marked record with its QUEUED part and another, and with it alone. -/
theorem hyp_OnAirFormCarriesText_completed :
    (∀ left ∈ [Remaining.times 1, .times 2, .standing], ∀ kind ∈ [ClassType.cutIn, .window, .free],
        ∀ others ∈ [([] : List Part), [⟨2, .done, .times 0, false, 0⟩], [⟨2, .queued, .times 1, false, 0⟩]],
        let p : Part := ⟨0, .onAir, left, false, 20⟩
        let r : Record := { bulletinRecord .ready with body := .bulletin ⟨2, kind, 1, p :: others, false⟩ }
        let s := (holding r).modLine 0 fun x => { x with
          cycle := cycleOf .bend, window := { x.window with state := .isOpen }
          cutInQueue := if kind = .cutIn then [7] else [], windowQueue := if kind = .window then [7] else []
          freeQueue := if kind = .free then [7] else [] }
        (s.line 0).ended = some .bend ∧ s.bulletinOnAir 0 = some 7 ∧ s.record 7 = some r
          ∧ s.part? 7 0 = some p ∧ r.withdrawMark = false)
      ∧ ∀ others ∈ [([] : List Part), [⟨2, .queued, .times 1, false, 0⟩]],
        let p : Part := ⟨0, .queued, .times 1, false, 0⟩
        let r : Record := { bulletinRecord .ready with
          withdrawMark := true, body := .bulletin ⟨2, .free, 1, p :: others, false⟩ }
        (holding r).record 7 = some r ∧ (holding r).part? 7 0 = some p ∧ p.state ≠ .onAir := by decide +kernel

theorem card_placed : card.messagesPlaced := by
  refine ⟨fun l e he => ?_, fun l c i hc => ?_, fun w hw => ?_⟩
  · rw [(card_lines_idle l).2.1] at he
    cases he
  · have := (card_lines_idle l).1.symm.trans hc
    cases this
  · cases hw

theorem hyp_SilenceOrdersChangeSet :
    card.reception .silence (toAll 1) 1 true = .taken ∧ card.reception .resume (toAll 1) 1 true = .taken
      ∧ ((card.line 0).mode ≠ .disabled ∧ (4 : BandMask).getLsbD (card.lineConfig 0).band.val = true)
      ∧ (card.line 1).mode = .disabled
      ∧ (4 : BandMask).getLsbD (card.lineConfig 2).band.val = false := by decide +kernel

theorem hyp_LineOrderHeldOrAnswered :
    (card.reception .stopLine (toAll 1) 1 true = .taken ∧ card.reception .startLine (toAll 1) 1 true = .taken
        ∧ card.reception .patternOn (toAll 3) 3 true = .taken
        ∧ card.reception .patternOff (toAll 3) 3 true = .taken)
      ∧ ((card.line 1).mode = .disabled ∧ card.queue.length < 24)
      ∧ ((card.line 0).mode ≠ .disabled ∧ (card.line 0).held = none)
      ∧ ((onLine fun x => { x with held := some ⟨.stop, 1⟩ }).line 0).held ≠ none := by decide +kernel

/-- A higher station's start ANNOUNCE in the start interval, the card's own echo, and a card in FAULT. -/
theorem hyp_AnnounceMetWithoutConflict :
    let s : State := { card with startInterval := true }
    (s.reception .announce (toAll 12) 12 true = .taken ∧ (12 : Station) ≠ s.strap ∧ s.fault = false
        ∧ s.reports = [] ∧ s.queue.length < 24 ∧ s.strap < 12 ∧ (12 : Station) ∉ s.known
        ∧ announced.reply = false ∧ announced.timeValid = true ∧ s.timeValid = false
        ∧ announced.minute.val < 1440)
      ∧ card.reception .announce (toAll 9) 9 true = .taken
      ∧ ({ card with fault := true } : State).reception .announce (toAll 12) 12 true = .taken := by
  decide +kernel

theorem hyp_LowerStationTakesChannel :
    card.reception .announce (toAll 5) 5 true = .taken ∧ (5 : Station) < card.strap ∧ card.fault = false
      ∧ ((card.line 0).mode ≠ .disabled ∧ (card.lineConfig 0).channel ≠ 0
        ∧ announced.channels[(2 : LineId)].val = (card.lineConfig 0).channel)
      ∧ (card.line 0).mode.keyed = true ∧ (card.line 2).mode.keyed = false
      ∧ ∀ j : LineId, announced.channels[j].val ≠ (card.lineConfig 2).channel := by decide +kernel

/-- Line 0 alone is listed: it holds a LINKED circuit's entry of band 2, for which there is no receiving line, and
with the band of the entry made 4 there are two; and a bulletin part, unmarked and marked. -/
theorem hyp_LowerStationTakesChannel_traffic :
    (linkedCard.shipsOnce ∧ linkedCard.messagesPlaced)
      ∧ (linkedCard.reception .announce (toAll 5) 5 true = .taken ∧ linkedCard.queue.length < 23
        ∧ linkedCard.isMarked 7 = false)
      ∧ (∀ m : LineId, (∃ j : LineId, announced.channels[j].val = (linkedCard.lineConfig m).channel)
        ∧ (linkedCard.lineConfig m).channel ≠ 0 → m = 0)
      ∧ (∀ m : LineId, m ≠ 0 → (card.lineConfig m).band = 2 → (card.line m).mode = .disabled)
      ∧ ((2 : LineId) ≠ 0 ∧ (card.lineConfig 2).band = 4 ∧ (card.line 2).mode ≠ .disabled)
      ∧ (airing .queued .active).part? 7 0 ≠ none ∧ ((airing .queued .active).line 0).freeQueue.Nodup := by
  refine ⟨⟨linked_ships false, linked_placed false⟩, ?_, ?_, ?_, ?_, ?_, ?_⟩ <;> decide +kernel

/-- The current message of the line taken is marked; and an order is held on it. -/
theorem hyp_LowerStationTakesChannel_marked :
    ((linkedWith true).shipsOnce ∧ (linkedWith true).messagesPlaced)
      ∧ ((linkedWith true).reception .announce (toAll 5) 5 true = .taken
        ∧ (linkedWith true).queue.length < 23 ∧ (linkedWith true).isMarked 7 = true
        ∧ ((linkedWith true).line 0).circuit.map (fun c => (c.ship, c.current)) = some (417, some 7)
        ∧ ((linkedWith true).line 0).entry? 417 ≠ none)
      ∧ ((onLine fun x => { x with held := some ⟨.stop, 1⟩ }).line 0).held = some ⟨.stop, 1⟩
      ∧ (onLine fun x => { x with held := some ⟨.stop, 1⟩ }).queue.length < 20 := by
  refine ⟨⟨linked_ships true, linked_placed true⟩, ?_⟩
  decide +kernel

/-- A card whose records are those of `card` and whose free list is that of reset keeps every page. -/
theorem pages_of_card {s : State} (records : s.records = card.records)
    (free : s.freePages = State.reset.freePages) : s.reportingEmpty ∧ s.pagesConserved := by
  have empty : ∀ i, s.record i = none := by
    intro i
    rw [show s.record i = card.record i by simp only [State.record, records], card_empty i]
  refine ⟨fun i r h => ?_, ?_⟩
  · rw [empty i] at h
    cases h
  · have held : s.heldPages = [] := by
      simp only [State.heldPages, List.flatMap_eq_nil_iff]
      intro i _
      simp [State.pagesOf, empty i]
    unfold State.pagesConserved
    rw [held, free, List.append_nil, State.reset]

/-- The card holds no pages and no record, so every page is free. -/
theorem card_pages : card.reportingEmpty ∧ card.pagesConserved :=
  pages_of_card rfl (by rw [card])

/-- The card with 17 frames queued and the bulletin in slot 7 LOADING on the pool's first four pages. -/
def crowdedCard : State :=
  { holding { bulletinRecord .loading with reserved := (List.finRange 2048).take 4 } with
    freePages := (List.finRange 2048).drop 4, queue := statuses 17 }

theorem crowded_record : crowdedCard.record 7
    = some { bulletinRecord .loading with reserved := (List.finRange 2048).take 4 } := by
  simp [crowdedCard, holding, State.record, State.setRecord]

theorem crowded_pages : crowdedCard.reportingEmpty ∧ crowdedCard.pagesConserved := by
  have others : ∀ i : Slot, i ≠ 7 → crowdedCard.record i = none := by
    intro i h
    rw [← card_empty i]
    have h' : (7 : Nat) ≠ i.val := fun e => h (Fin.ext e.symm)
    simp [crowdedCard, holding, State.record, State.setRecord, h']
  refine ⟨fun i r h => ?_, ?_⟩
  · by_cases hi : i = 7
    · subst hi
      rw [crowded_record] at h
      cases h
      intro h
      cases h
    · rw [others i hi] at h
      cases h
  · have held : crowdedCard.heldPages = (List.finRange 2048).take 4 := by
      have pages : crowdedCard.pagesOf = fun i => if i = 7 then (List.finRange 2048).take 4 else [] := by
        funext i
        by_cases hi : i = 7
        · subst hi
          simp [State.pagesOf, crowded_record, bulletinRecord, telexRecord]
        · simp [State.pagesOf, others i hi, hi]
      have split : slots = (List.finRange 96).take 7 ++ 7 :: (List.finRange 96).drop 8 := by decide
      unfold State.heldPages
      rw [pages, split, List.flatMap_append, List.flatMap_cons]
      have left : ∀ i ∈ (List.finRange 96).take 7, i ≠ (7 : Slot) := by decide
      have right : ∀ i ∈ (List.finRange 96).drop 8, i ≠ (7 : Slot) := by decide
      rw [List.flatMap_eq_nil_iff.mpr fun i h => if_neg (left i h),
        List.flatMap_eq_nil_iff.mpr fun i h => if_neg (right i h)]
      simp
    unfold State.pagesConserved
    rw [held, show crowdedCard.freePages = (List.finRange 2048).drop 4 by rw [crowdedCard]]
    exact List.perm_append_comm.trans (by rw [List.take_append_drop])

/-- One card meets every premise, with more than 16 frames queued and a LOADING record. -/
theorem hyp_RestartClearsCard :
    crowdedCard.reception .restart (from' 1) 1 true = .taken
      ∧ (crowdedCard.reportingEmpty ∧ crowdedCard.pagesConserved)
      ∧ (crowdedCard.queue.length < 24 ∧ 16 < crowdedCard.queue.length)
      ∧ ∃ r, crowdedCard.record 7 = some r ∧ r.state = .loading :=
  ⟨by decide +kernel, crowded_pages, by decide, _, crowded_record, rfl⟩

theorem hyp_RankRefusedCounted :
    card.phase = .settled ∧ card.fault = false ∧ (3 : Station) ≠ 63
      ∧ card.config.rankMap[(3 : Station)] ≠ 0 ∧ 1 < card.config.rankMap[(5 : Station)]
      ∧ 2 < card.config.rankMap[(20 : Station)] ∧ (from' 3).dest = card.strap
      ∧ (from' 3).source ≠ keyA.station
      ∧ (⟨1, 12⟩ : Header).dest ≠ card.strap ∧ (⟨1, 12⟩ : Header).dest ≠ 63 := by decide +kernel

/-- A RESTART, dropped without count; a TEXT without characters, and one from another than its poster. -/
theorem hyp_FaultCardDropsFrames :
    let s : State := { card with fault := true }
    s.phase = .settled ∧ s.fault = true ∧ frameOf (.restart (from' 1)) = some (.restart, from' 1, [])
      ∧ (∀ h x, Instr.restart (from' 1) ≠ .statusQuery h x) ∧ (from' 1).source ≠ 63
      ∧ (frameOf (.text (from' 5) keyA 0 [])).isSome ∧ (frameOf (.text (from' 3) keyA 0 [65])).isSome
      ∧ (from' 3).source ≠ keyA.station :=
  ⟨rfl, rfl, rfl, fun _ _ => by simp, by decide, rfl, rfl, by decide⟩

theorem hyp_StatusQueryAnswered :
    card.reception .statusQuery (from' 1) 1 true = .taken ∧ card.queue.length < 24
      ∧ (4 : Fin 256).val = 4 ∧ (3 : Fin 256).val = (3 : LineId).val ∧ 4 < (5 : Fin 256).val := by
  decide +kernel

theorem hyp_BadFrameCounted :
    card.phase = .settled ∧ card.claims = [] ∧ card.reports = [] ∧ FailedCheck.kind ≠ .crc
      ∧ (claimingCard false none).claims ≠ [] ∧ ((claimingCard false none).claims.map (·.slot)).Nodup
      ∧ (claimingCard false none).reports = [] := by decide +kernel

theorem hyp_SendingStartsAndStops :
    card.queue = [] ∧ ({ card with queue := statuses 2 } : State).queue = statuses 2
      ∧ ∀ q ∈ statuses 2, q.onWire = false := by decide +kernel

/-- A frame on the wire of 17, with two reports of one record waiting: the first of them is handed. -/
def crowdedReports : State :=
  { holding (telexRecord .reporting) with
    queue := startSending (statuses 17), reports := [⟨7, .conflict⟩, ⟨7, .delivered⟩] }

theorem crowdedReports_record : crowdedReports.record 7 = some (telexRecord .reporting) := by decide +kernel

theorem hyp_SentFrameLeavesQueue :
    (∃ e ∈ crowdedReports.queue, e.onWire = true) ∧ crowdedReports.reportsOwned
      ∧ min crowdedReports.reports.length
          (17 - (crowdedReports.queue.filter fun e => !e.onWire).length) = 1
      ∧ ∀ e ∈ card.queue, e.onWire = false := by
  refine ⟨by decide +kernel, fun p hp => ?_, by decide +kernel, by decide⟩
  have slot : p.slot = 7 := by
    rcases List.mem_cons.mp hp with rfl | hp
    · rfl
    · rw [List.mem_singleton.mp hp]
  exact ⟨_, (congrArg crowdedReports.record slot).trans crowdedReports_record, .inl rfl⟩

/-- A frame on the wire, and one report of a record in REPORTING: the last of it, so the record is freed. -/
theorem hyp_SentFrameLeavesQueue_freed :
    let s : State := { holding (telexRecord .reporting) with
      queue := startSending (statuses 3), reports := [⟨7, .delivered⟩] }
    s.record 7 = some (telexRecord .reporting)
      ∧ (∃ p ∈ s.reports.take (min s.reports.length (17 - (s.queue.filter fun e => !e.onWire).length)), p.slot = 7)
      ∧ (after .sendingComplete s).reports = [] := by decide +kernel

/-- Room; a full queue of nothing above 7 for a STATUS; a full queue with a STATUS to displace for a CLAIM. -/
theorem hyp_OfferedFrameEntersOrDisplaces :
    card.queue.length < 24 ∧ ({ card with queue := statuses 24 } : State).queue.length = 24
      ∧ (∀ e ∈ statuses 24, e.onWire = true
        ∨ e.precedence ≤ (Payload.cardStatus card.cardStatus).precedence)
      ∧ (∃ e ∈ statuses 24, e.onWire = false ∧ (Payload.claim keyA 1).precedence < e.precedence)
      ∧ (statuses 24).Pairwise fun a b => a.precedence ≤ b.precedence := by
  decide +kernel

/-- A TAKE offered to a queue full of CLAIMs is discarded; its key's record is held. -/
theorem hyp_OfferedFrameEntersOrDisplaces_take :
    let s : State := { holding (telexRecord .loading) with
      queue := List.replicate 24 ⟨⟨63, .claim keyA 1⟩, false⟩ }
    s.queue.length = 24 ∧ (∀ e ∈ s.queue, e.precedence ≤ (Payload.take keyA).precedence)
      ∧ s.recordUnder keyA = some (7, telexRecord .loading) := by decide +kernel

theorem hyp_HeardFrameIsCommand :
    (Instr.withdraw (from' 5) keyA).wellFormed = true
      ∧ (commandBits 4 (.withdraw (from' 5) keyA)).isSome = true := by decide +kernel

theorem hyp_CardFramesAreHeard : (9 : Station) ≠ 63 := by decide

/-- A card with a frame on the wire, one step from the next. -/
def sending : State := { card with queue := startSending (statuses 2), pending := [.sendingComplete] }

theorem hyp_StepKeepsQueue :
    sending.queueBounded ∧ sending.queueOrdered ∧ step sending = .next (after .sendingComplete { sending with pending := [] }) :=
  ⟨by unfold State.queueBounded; decide, ⟨by decide +kernel, by decide +kernel⟩, rfl⟩

theorem hyp_StepHandsReports :
    sending.reportsHanded ∧ sending.reportsOwned
      ∧ step sending = .next (after .sendingComplete { sending with pending := [] }) := by
  refine ⟨.inl rfl, fun p hp => ?_, rfl⟩
  rw [show sending.reports = [] by decide] at hp
  cases hp

theorem sending_pages : sending.reportingEmpty ∧ sending.pagesConserved :=
  pages_of_card (by rw [sending]) (by rw [sending, card])

theorem hyp_StepKeepsPages :
    sending.reportingEmpty ∧ sending.pagesConserved
      ∧ step sending = .next (after .sendingComplete { sending with pending := [] }) :=
  ⟨sending_pages.1, sending_pages.2, rfl⟩

theorem hyp_StepKeepsText :
    sending.textCanonical ∧ step sending = .next (after .sendingComplete { sending with pending := [] }) :=
  ⟨rfl, rfl⟩

theorem card_lines_counters : ∀ l, (card.line l).counters = .zero := by decide +kernel

theorem hyp_CountersSaturate :
    sending.countersBounded ∧ step sending = .next (after .sendingComplete { sending with pending := [] })
      ∧ card.reception .restart (from' 1) 1 true = .taken ∧ card.queue.length < 24 := by
  refine ⟨⟨by unfold CardCounters.bounded; decide, fun l => ?_⟩, rfl, by decide +kernel, by decide⟩
  have : (sending.line l).counters = .zero := card_lines_counters l
  rw [this]
  unfold LineCounters.bounded
  decide

theorem hyp_StepKeepsKeysAndClaims :
    sending.keysDistinct ∧ sending.claimsBounded
      ∧ step sending = .next (after .sendingComplete { sending with pending := [] }) := by
  refine ⟨fun i j r r' h => ?_, by unfold State.claimsBounded; decide, rfl⟩
  have := (card_empty i).symm.trans h
  cases this

theorem linked_not_claiming : ∀ i r, linkedCard.record i = some r → r.state ≠ .claiming := by
  have each : ∀ i, (linkedCard.record i).all (fun r => r.state ≠ .claiming) = true := by decide +kernel
  intro i r h hs
  have := each i
  simp [h, hs] at this

/-- The card with a LINKED circuit, one boundary from the next; it meets the premises of StepHandsReports too. -/
theorem hyp_StepKeepsShips :
    (linkedCard.shipsOnce ∧ linkedCard.messagesPlaced ∧ linkedCard.reportsOwned
        ∧ linkedCard.claimingTelex ∧ linkedCard.onePartOnAir)
      ∧ step { linkedCard with pending := [.boundary 0] }
        = .next (({ linkedCard with pending := [] } : State).boundary 0) := by
  have none : linkedCard.reports = [] := by decide +kernel
  refine ⟨⟨linked_ships false, linked_placed false, ?_, fun i r h hs => ?_, ?_⟩, ?_⟩
  · intro p hp
    rw [none] at hp
    cases hp
  · exact absurd hs (linked_not_claiming i r h)
  · unfold State.onePartOnAir
    decide +kernel
  have settled : linkedCard.phase = .settled := by decide +kernel
  simp [step, exec, execBoundary, settled]

theorem hyp_StepKeepsLinesInRange :
    sending.linesInRange ∧ step sending = .next (after .sendingComplete { sending with pending := [] }) := by
  refine ⟨⟨⟨by decide, ?_, ?_⟩, fun h => ?_, fun l => ?_⟩, rfl⟩
  · intro l
    fin_cases l <;> simp only [lineInRange] <;> decide +kernel
  · intro j
    fin_cases j <;> simp only [classInRange] <;> decide +kernel
  · cases h
  · obtain ⟨h1, h2, -⟩ := card_lines_idle l
    have range : (card.line l).fillerRun ≤ 8 ∧ (card.line l).keyupCount ≤ 2
        ∧ (card.line l).window = .reset ∧ (card.line l).arbiter.turnCycles ≤ 16 := by
      revert l
      decide +kernel
    obtain ⟨r1, r2, r3, r4⟩ := range
    refine ⟨r1, r2, ?_, r4, fun c h => ?_, fun e h => ?_⟩
    · rw [show (sending.line l).window = .reset from r3]
      exact ⟨by decide, ⟨by decide, fun _ => by decide⟩, by decide, fun h => absurd h (by decide)⟩
    · cases h1.symm.trans h
    · rw [show (sending.line l).callList = [] from h2] at h
      cases h

/-- An open window on line 0, with the bulletin in slot 7 in its queue. -/
def windowOn (s : State) (f : Line → Line) : State :=
  s.modLine 0 fun x => f { x with window := { x.window with state := .isOpen }, windowQueue := x.freeQueue, freeQueue := [] }

/-- The end tests: a T turn of four cycles, TURN 4, and one of three; and sources 1 to 3: each operation, a parked
circuit at PARK-LIMIT − 4, and a cut in hand. -/
theorem hyp_ActiveLineServesFirstSource :
    (∀ n ∈ [3, 4],
        let s := windowOn (operatingOn (telexRecord .onAir) (sendingBlock .linked) .keep none entry) fun x =>
          { x with arbiter := { x.arbiter with turn := .telex, turnCycles := n } }
        (s.line 0).arbiter.turn = .telex ∧ (s.line 0).arbiter.turnCycles = n ∧ (s.lineConfig 0).turn = 4
          ∧ (s.line 0).window.state = .isOpen ∧ (s.line 0).circuit = some (sendingBlock .linked))
      ∧ (∀ st ∈ [CircuitState.calling, .aligning, .identifying, .rephasing, .clearing],
        ((operating (circuit st) .keep none entry).line 0).circuit = some (circuit st))
      ∧ (let c := { sendingBlock .parked with silenceCount := 36 }
        (card.lineConfig 0).parkLimit - 4 ≤ c.silenceCount ∧ c.state = .parked)
      ∧ ({ sendingBlock .linked with cut := true } : Circuit).cut = true := by decide +kernel

/-- Sources 3 to 5: a bulletin on air, unmarked and marked; a cut-in on air; a READY cut-in with a bulletin on air, and
with no circuit, a CALLING, a PARKED and a LINKED one with traffic and without; a notice run. -/
theorem hyp_ActiveLineServesFirstSource_units :
    (let s := airing .onAir .active
     s.bulletinOnAir 0 = some 7 ∧ s.unitOnAir 0 = some 7 ∧ s.cutInOnAir 0 = none ∧ s.isMarked 7 = false
      ∧ (s.modRecord 7 fun r => { r with withdrawMark := true }).isMarked 7 = true)
      ∧ ((airing .onAir .active).modLine 0 fun x => { x with cutInQueue := [7] }).cutInOnAir 0 = some 7
      ∧ (∀ c ∈ [none, some (circuit .calling), some (sendingBlock .parked), some (sendingBlock .linked),
          some (circuit .linked)],
        let s := (airing .queued .active).modLine 0 fun x =>
          { x with cutInQueue := [7], freeQueue := [], circuit := c }
        (s.line 0).cutInQueue = [7] ∧ s.isReady 7 = true ∧ (s.part? 7 0).map (·.state) = some .queued
          ∧ s.cutInOnAir 0 = none ∧ s.unitOnAir 0 = none ∧ (s.line 0).circuit = c ∧ (s.line 0).callList = [])
      ∧ ((onLine fun x => { x with window := { x.window with noticeStep := 1 } }).line 0).window.noticeStep ≠ 0 := by
  decide +kernel

/-- Source 6: an open window with a part and with none after a unit, for a B turn that waits, no circuit, and a LINKED
and a PARKED circuit with traffic and without; a keep due at a silence-count of 20, PARK-LIMIT 40; both table
entries. -/
theorem hyp_ActiveLineServesFirstSource_window :
    (∀ c ∈ [none, some (sendingBlock .linked), some { sendingBlock .parked with silenceCount := 20 },
        some (circuit .linked)], ∀ turn ∈ [Turn.noTurn, .bulletin], ∀ left ∈ [true, false],
        let s := windowOn (airing .queued .active) fun x => { x with
          circuit := c, arbiter := { x.arbiter with turn := turn }
          windowQueue := if left then [7] else [], window := { x.window with unitsEnded := true } }
        (s.line 0).window.state = .isOpen ∧ (s.line 0).circuit = c ∧ (s.line 0).arbiter.turn = turn
          ∧ s.askWindow 0 = (if left then .part 7 else .nothing) ∧ s.cutInOnAir 0 = none ∧ s.unitOnAir 0 = none
          ∧ (s.line 0).callList = [])
      ∧ ((card.lineConfig 0).parkLimit / 2 ≤ 20 ∧ 20 < (card.lineConfig 0).parkLimit - 4)
      ∧ (card.lineConfig 0).table[(0 : Fin 32)] = .bulletin := by decide +kernel

/-- Sources 7 to 10 without an open window: traffic; none, before and at the end of the linger; a callable entry; a free
part; nothing, after no FILLER and after 8. The silence step: a PARK answered and not, below PARK-LIMIT and at it. -/
theorem hyp_ActiveLineServesFirstSource_below :
    (∀ st ∈ [CircuitState.linked, .parked],
        let s := operatingOn (telexRecord .onAir) (sendingBlock st) .park none entry
        (s.line 0).circuit = some (sendingBlock st) ∧ (s.line 0).window.state ≠ .isOpen ∧ s.record 7 ≠ none)
      ∧ (card.lineConfig 0).linger = 0 ∧ (circuit .linked).lingerCount = 0
      ∧ ({ circuit .linked with lingerCount := 1 } : Circuit).lingerCount ≠ (card.lineConfig 0).linger
      ∧ (let s := (operating (circuit .linked) .filler none entry).setCircuit 0 none
         (s.line 0).callList = [] ++ entry :: [] ∧ entry.retryHold = 0 ∧ s.isReady 7 = true
          ∧ (s.line 0).circuit = none)
      ∧ ((airing .queued .active).nextFree 0 = some 7 ∧ ((airing .queued .active).line 0).callList = [])
      ∧ (∀ n ∈ [0, 8], ((onLine fun x => { x with fillerRun := n }).line 0).fillerRun = n)
      ∧ ∀ n ∈ [38, 39], ∀ o ∈ [some Outcome.good, some .noAnswer],
        let c := { sendingBlock .parked with silenceCount := n }
        let s := operatingOn (telexRecord .onAir) c .park o entry
        (s.line 0).circuit = some c ∧ (s.line 0).ended = some .park ∧ (s.lineConfig 0).parkLimit = 40 := by
  decide +kernel

theorem hyp_StepKeepsSilence :
    let s : State := { card with silenced := 1, pending := [.silence (toAll 1) 1] }
    s.silenceHeld ∧ step s = .next (after (.silence (toAll 1) 1) { s with pending := [] })
      ∧ ∀ b < 8, (after (.silence (toAll 1) 1) { s with pending := [] }).silenced.getLsbD b = true →
        s.silenced.getLsbD b = true :=
  ⟨⟨by decide, by decide +kernel⟩, rfl, by decide +kernel⟩

end Sys2Proof.Machine.Tests
end

namespace Sys2Proof.Machine

/-! ## What the work of one line can touch -/

/-- The fields of chapter 01 of a line, everything else as at reset: equal `control` means an equal mode,
cycle record, kept outcome, counts, held order and silence answer. -/
def Line.control (x : Line) : Line :=
  { Line.reset with
    mode := x.mode, cycle := x.cycle, outcome := x.outcome, keyupCount := x.keyupCount
    fillerRun := x.fillerRun, held := x.held, silenceAnswer := x.silenceAnswer }

theorem Line.control_eq_iff {x y : Line} : y.control = x.control ↔
    y.mode = x.mode ∧ y.cycle = x.cycle ∧ y.outcome = x.outcome ∧ y.keyupCount = x.keyupCount
      ∧ y.fillerRun = x.fillerRun ∧ y.held = x.held ∧ y.silenceAnswer = x.silenceAnswer := by
  simp [Line.control]

/-- The fields of a line that its boundary reads and writes only at its ends: the record in progress, the kept
outcome and the silence answer. -/
def Line.mail (x : Line) : Option CycleRecord × Option Outcome × Option Station :=
  (x.cycle, x.outcome, x.silenceAnswer)

theorem Line.mail_of_control {x y : Line} (h : y.control = x.control) : y.mail = x.mail := by
  obtain ⟨-, cycle, outcome, -, -, -, silence⟩ := Line.control_eq_iff.mp h
  simp [Line.mail, cycle, outcome, silence]

theorem Line.mail_eq_iff {x y : Line} :
    y.mail = x.mail ↔ y.cycle = x.cycle ∧ y.outcome = x.outcome ∧ y.silenceAnswer = x.silenceAnswer := by
  simp [Line.mail]

/-- The line that a telex record names (R133). -/
def Record.home (r : Record) : Option LineId := r.telex?.bind (·.line)

/-- Whether a record's part on a line is ON-AIR. -/
def Record.airs (r : Record) (l : LineId) : Bool := (r.part? l).any fun p => p.state = .onAir

theorem State.partOnAir_eq (s : State) (l : LineId) (i : Slot) :
    s.partOnAir l i = (s.record i).any fun r => r.airs l := by
  unfold State.partOnAir State.part?
  cases s.record i <;> rfl

/-- Every record of `t` is one of `s`, changed: it names the same line, and airs on `l` only what it aired. -/
def State.recordsFrom (l : LineId) (s t : State) : Prop :=
  ∀ i r', t.record i = some r' →
    ∃ r, s.record i = some r ∧ r'.home = r.home ∧ (r'.airs l = true → r.airs l = true)

theorem State.recordsFrom_refl (l : LineId) (s : State) : State.recordsFrom l s s :=
  fun _ r h => ⟨r, h, rfl, id⟩

theorem State.recordsFrom_trans {l : LineId} {s t u : State} (h1 : State.recordsFrom l s t)
    (h2 : State.recordsFrom l t u) : State.recordsFrom l s u := by
  intro i r' hr'
  obtain ⟨r, hr, home, airs⟩ := h2 i r' hr'
  obtain ⟨r0, hr0, home0, airs0⟩ := h1 i r hr
  exact ⟨r0, hr0, home.trans home0, fun h => airs0 (airs h)⟩

theorem State.recordsFrom_of_eq {l : LineId} {s t : State} (h : t.records = s.records) :
    State.recordsFrom l s t :=
  fun i r hr => ⟨r, (State.record_congr h i).symm.trans hr, rfl, id⟩

theorem State.recordsFrom_modRecord {l : LineId} (s : State) (i : Slot) {f : Record → Record}
    (h : ∀ r, (f r).home = r.home ∧ ((f r).airs l = true → r.airs l = true)) :
    State.recordsFrom l s (s.modRecord i f) := by
  intro j r' hr'
  by_cases hj : j = i
  · subst hj
    rw [State.record_modRecord_self, Option.map_eq_some_iff] at hr'
    obtain ⟨r, hr, rfl⟩ := hr'
    exact ⟨r, hr, h r⟩
  · exact ⟨r', (State.record_modRecord_ne s f hj).symm.trans hr', rfl, id⟩

theorem State.recordsFrom_free {l : LineId} (s : State) (i : Slot) :
    State.recordsFrom l s (s.setRecord i none) := by
  intro j r' hr'
  by_cases hj : j = i
  · subst hj; simp at hr'
  · exact ⟨r', (State.record_setRecord_ne s none hj).symm.trans hr', rfl, id⟩

/-- What the interleaver's choice leaves of a card: every other line whole, the control fields of its own
line, and the transmit queue. -/
structure Serves (l : LineId) (s t : State) : Prop where
  others : ∀ m, m ≠ l → t.line m = s.line m
  control : (t.line l).control = (s.line l).control
  queue : t.queue = s.queue

/-- What the bulletin unit's and the window's work on a line leaves of a card: besides, the circuit and the
call list of the line, the lines that telex records name, and no part put on air or into a queue. -/
structure PartWork (l : LineId) (s t : State) : Prop extends Serves l s t where
  circuit : (t.line l).circuit = (s.line l).circuit
  calls : (t.line l).callList = (s.line l).callList
  records : State.recordsFrom l s t
  slots : ∀ j ∈ (t.line l).bulletinSlots, j ∈ (s.line l).bulletinSlots

/-- The telex message in a slot, where one is named, names the line (R133). -/
def State.atHome (s : State) (l : LineId) (cur : Option Slot) : Prop :=
  ∀ i r m, cur = some i → s.record i = some r → r.home = some m → m = l

/-- The current message of a line's circuit, where there is one, is `cur`. -/
def State.currentIs (s : State) (l : LineId) (cur : Option Slot) : Prop :=
  ∀ c i, (s.line l).circuit = some c → c.current = some i → cur = some i

/-- What the work of a line leaves of a card, where `cur` is its circuit's current message: of other lines
their call lists alone change, and not even these where the message names this line (R28). -/
structure Frames (l : LineId) (cur : Option Slot) (s t : State) : Prop where
  mail : (t.line l).mail = (s.line l).mail
  bare : ∀ m, m ≠ l → ∃ q, t.line m = { s.line m with callList := q }
  others : s.atHome l cur → ∀ m, m ≠ l → t.line m = s.line m
  queue : t.queue = s.queue
  records : State.recordsFrom l s t
  current : s.currentIs l cur → t.currentIs l cur
  empty : (s.line l).callList = [] → (t.line l).callList = []
  slots : ∀ j ∈ (t.line l).bulletinSlots, j ∈ (s.line l).bulletinSlots

/-- What the settling and the per-boundary work of a line leave of a card: besides, the control fields. -/
structure LineWork (l : LineId) (cur : Option Slot) (s t : State) : Prop extends Frames l cur s t where
  control : (t.line l).control = (s.line l).control

variable {l : LineId} {cur : Option Slot} {s t u : State}

theorem Serves.refl (l : LineId) (s : State) : Serves l s s := ⟨fun _ _ => rfl, rfl, rfl⟩

theorem Serves.trans (h1 : Serves l s t) (h2 : Serves l t u) : Serves l s u :=
  ⟨fun m h => (h2.others m h).trans (h1.others m h), h2.control.trans h1.control,
    h2.queue.trans h1.queue⟩

/-- A change of fields of the line that are not control fields. -/
theorem Serves.modLine (s : State) {f : Line → Line} (h : ∀ x, (f x).control = x.control) :
    Serves l s (s.modLine l f) :=
  ⟨fun _ hm => s.line_modLine_ne f hm, by rw [State.line_modLine_self, h], rfl⟩

theorem Serves.of_lines (h : t.lines = s.lines) (hq : t.queue = s.queue) : Serves l s t :=
  ⟨fun m _ => State.line_congr h m, by rw [State.line_congr h], hq⟩

theorem PartWork.refl (l : LineId) (s : State) : PartWork l s s :=
  ⟨.refl l s, rfl, rfl, State.recordsFrom_refl l s, fun _ h => h⟩

theorem PartWork.trans (h1 : PartWork l s t) (h2 : PartWork l t u) : PartWork l s u :=
  ⟨h1.toServes.trans h2.toServes, h2.circuit.trans h1.circuit, h2.calls.trans h1.calls,
    State.recordsFrom_trans h1.records h2.records, fun j h => h1.slots j (h2.slots j h)⟩

theorem PartWork.modLine (s : State) {f : Line → Line} (control : ∀ x, (f x).control = x.control)
    (circuit : ∀ x, (f x).circuit = x.circuit) (calls : ∀ x, (f x).callList = x.callList)
    (slots : ∀ x, ∀ j ∈ (f x).bulletinSlots, j ∈ x.bulletinSlots) : PartWork l s (s.modLine l f) :=
  ⟨.modLine s control, by rw [State.line_modLine_self, circuit], by rw [State.line_modLine_self, calls],
    State.recordsFrom_of_eq rfl, by rw [State.line_modLine_self]; exact slots _⟩

theorem PartWork.of_records (hl : t.lines = s.lines) (hq : t.queue = s.queue)
    (hr : State.recordsFrom l s t) : PartWork l s t :=
  ⟨.of_lines hl hq, by rw [State.line_congr hl], by rw [State.line_congr hl], hr,
    by rw [State.line_congr hl]; exact fun _ h => h⟩

theorem PartWork.modRecord (s : State) (i : Slot) {f : Record → Record}
    (h : ∀ r, (f r).home = r.home ∧ ((f r).airs l = true → r.airs l = true)) :
    PartWork l s (s.modRecord i f) :=
  .of_records rfl rfl (State.recordsFrom_modRecord s i h)

theorem Frames.refl (l : LineId) (cur : Option Slot) (s : State) : Frames l cur s s :=
  ⟨rfl, fun m _ => ⟨(s.line m).callList, rfl⟩, fun _ _ _ => rfl, rfl, State.recordsFrom_refl l s, id, id,
    fun _ h => h⟩

theorem State.atHome_of_records (h : State.recordsFrom l s t) (hs : s.atHome l cur) : t.atHome l cur := by
  intro i r' m hc hr' hm
  obtain ⟨r, hr, home, -⟩ := h i r' hr'
  exact hs i r m hc hr (home ▸ hm)

theorem Frames.trans (h1 : Frames l cur s t) (h2 : Frames l cur t u) : Frames l cur s u where
  mail := h2.mail.trans h1.mail
  bare m hm := by
    obtain ⟨q1, e1⟩ := h1.bare m hm
    obtain ⟨q2, e2⟩ := h2.bare m hm
    exact ⟨q2, by rw [e2, e1]⟩
  others hs m hm :=
    (h2.others (State.atHome_of_records h1.records hs) m hm).trans (h1.others hs m hm)
  queue := h2.queue.trans h1.queue
  records := State.recordsFrom_trans h1.records h2.records
  current hs := h2.current (h1.current hs)
  empty hs := h2.empty (h1.empty hs)
  slots j hj := h1.slots j (h2.slots j hj)

theorem LineWork.refl (l : LineId) (cur : Option Slot) (s : State) : LineWork l cur s s :=
  ⟨.refl l cur s, rfl⟩

theorem LineWork.trans (h1 : LineWork l cur s t) (h2 : LineWork l cur t u) : LineWork l cur s u :=
  ⟨h1.toFrames.trans h2.toFrames, h2.control.trans h1.control⟩

theorem PartWork.lineWork (cur : Option Slot) (h : PartWork l s t) : LineWork l cur s t where
  mail := Line.mail_of_control h.control
  bare m hm := ⟨(s.line m).callList, h.others m hm⟩
  others _ := h.others
  queue := h.queue
  records := h.records
  current hs c i hc hi := hs c i (h.circuit ▸ hc) hi
  empty hs := h.calls.trans hs
  slots := h.slots
  control := h.control

/-- A change of the line that keeps the queues. -/
theorem Frames.modLine (s : State) {f : Line → Line} (mail : ∀ x, (f x).mail = x.mail)
    (current : ∀ x c i, (f x).circuit = some c → c.current = some i →
      (∃ d, x.circuit = some d ∧ d.current = some i) ∨ cur = some i)
    (empty : ∀ x, x.callList = [] → (f x).callList = [])
    (slots : ∀ x, ∀ j ∈ (f x).bulletinSlots, j ∈ x.bulletinSlots) : Frames l cur s (s.modLine l f) where
  mail := by rw [State.line_modLine_self, mail]
  bare m hm := ⟨(s.line m).callList, s.line_modLine_ne f hm⟩
  others _ _ hm := s.line_modLine_ne f hm
  queue := rfl
  records := State.recordsFrom_of_eq rfl
  current hs c i hc hi := by
    rw [State.line_modLine_self] at hc
    rcases current _ c i hc hi with ⟨d, hd, hi'⟩ | h
    · exact hs d i hd hi'
    · exact h
  empty := by rw [State.line_modLine_self]; exact empty _
  slots := by rw [State.line_modLine_self]; exact slots _

/-- The line gets a circuit whose current message is the one worked on, or none. -/
theorem LineWork.setCircuit (s : State) (c : Option Circuit)
    (h : ∀ d i, c = some d → d.current = some i → cur = some i) : LineWork l cur s (s.setCircuit l c) :=
  ⟨.modLine s (fun _ => rfl) (fun _ d i hd hi => .inr (h d i hd hi)) (fun _ => id) (fun _ _ => id), by
    simp [State.setCircuit, Line.control]⟩

/-- The call list of the line changes, an empty one staying so. -/
theorem LineWork.modCalls (s : State) {f : Line → List Entry} (h : ∀ x, x.callList = [] → f x = []) :
    LineWork l cur s (s.modLine l fun x => { x with callList := f x }) :=
  ⟨.modLine s (fun _ => rfl) (fun _ d i hd hi => .inl ⟨d, hd, hi⟩) h (fun _ _ => id), by simp [Line.control]⟩

/-! ## The store's operations -/

theorem PartWork.addReport (s : State) (i : Slot) (item : ReportItem) : PartWork l s (s.addReport i item) :=
  .of_records rfl rfl (State.recordsFrom_of_eq rfl)

theorem PartWork.returnPages (s : State) (i : Slot) : PartWork l s (s.returnPages i) := by
  cases h : s.record i with
  | none => rw [State.returnPages_none h]; exact .refl l s
  | some r =>
    have e : s.returnPages i = { s with freePages := s.freePages ++ r.pageList ++ r.reserved }.modRecord i
        fun r => { r with pageList := [], reserved := [] } := by
      rw [State.returnPages_some h]
      have h' : State.record { s with freePages := s.freePages ++ r.pageList ++ r.reserved } i = some r := h
      rw [State.modRecord, h']
      rfl
    rw [e]
    exact .trans (t := { s with freePages := s.freePages ++ r.pageList ++ r.reserved })
      (.of_records rfl rfl (State.recordsFrom_of_eq rfl)) (.modRecord _ i fun _ => ⟨rfl, id⟩)

theorem PartWork.endWork (s : State) (i : Slot) : PartWork l s (s.endWork i) :=
  (PartWork.returnPages s i).trans (.modRecord _ i fun _ => ⟨rfl, id⟩)

theorem PartWork.freeIfSpent (s : State) (i : Slot) : PartWork l s (s.freeIfSpent i) := by
  rcases s.freeIfSpent_cases i with h | ⟨_, -, -, -, h⟩
  · rw [h]; exact .refl l s
  · rw [h]; exact .of_records rfl rfl (State.recordsFrom_free s i)

theorem PartWork.addBsent (s : State) (i : Slot) (m : LineId) (rem : Remaining) :
    PartWork l s (s.addBsent i m rem) := by
  unfold State.addBsent
  split
  · exact .of_records rfl rfl (State.recordsFrom_of_eq rfl)
  · exact .addReport s i _

theorem PartWork.discardBsents (s : State) (i : Slot) : PartWork l s (s.discardBsents i) :=
  .of_records rfl rfl (State.recordsFrom_of_eq rfl)

/-! ## Entries -/

theorem LineWork.modEntry (s : State) (ship : Nat) (f : Entry → Entry) :
    LineWork l cur s (s.modEntry l ship f) :=
  .modCalls s fun x h => by simp [h]

theorem LineWork.freeEntry (s : State) (ship : Nat) : LineWork l cur s (s.freeEntry l ship) :=
  .modCalls s fun x h => by simp [h]

theorem LineWork.freeEmptyEntry (s : State) (ship : Nat) : LineWork l cur s (s.freeEmptyEntry l ship) :=
  .modCalls s fun x h => by simp [h]

/-- The entry of a ship moved to the tail: the call list after it. -/
theorem State.entryToTail_eq (s : State) (l : LineId) (ship : Nat) (f : Entry → Entry) :
    s.entryToTail l ship f = s.modLine l fun x =>
      { x with callList := match x.entry? ship with
          | none => x.callList
          | some e => x.callList.filter (fun e' => e'.ship ≠ ship) ++ [f e] } := by
  unfold State.entryToTail
  congr 1
  funext x
  cases x.entry? ship <;> rfl

/-- The entry of a ship moved to the head: the call list after it. -/
theorem State.entryToHead_eq (s : State) (l : LineId) (ship : Nat) (f : Entry → Entry) :
    s.entryToHead l ship f = s.modLine l fun x =>
      { x with callList := match x.entry? ship with
          | none => x.callList
          | some e => f e :: x.callList.filter (fun e' => e'.ship ≠ ship) } := by
  unfold State.entryToHead
  congr 1
  funext x
  cases x.entry? ship <;> rfl

theorem LineWork.entryToTail (s : State) (ship : Nat) (f : Entry → Entry) :
    LineWork l cur s (s.entryToTail l ship f) := by
  rw [State.entryToTail_eq]
  exact .modCalls s fun x h => by simp [Line.entry?, h]

theorem LineWork.entryToHead (s : State) (ship : Nat) (f : Entry → Entry) :
    LineWork l cur s (s.entryToHead l ship f) := by
  rw [State.entryToHead_eq]
  exact .modCalls s fun x h => by simp [Line.entry?, h]

/-- Two changes of one line are one. -/
theorem State.modLine_modLine (s : State) (l : LineId) (f g : Line → Line) :
    (s.modLine l f).modLine l g = s.modLine l fun x => g (f x) := by
  rw [State.modLine, State.line_modLine_self]
  simp [State.modLine, State.setLine]

/-- A message that names a line leaves its entry there, and the entry goes where it is left empty and the
line does not work for the ship (R28). -/
theorem State.leaveEntry_eq {s : State} {i : Slot} {r : Record} {x : Telex} {m : LineId}
    (h : s.record i = some r) (hx : r.body = .telex x) (hm : x.line = some m) :
    s.leaveEntry i = s.modLine m fun y => { y with
      callList := if (s.line m).worksFor x.ship then callsWithout y.callList x.ship i
        else callsKept (callsWithout y.callList x.ship i) x.ship } := by
  have ht : (s.record i).bind Record.telex? = some x := by simp [h, Record.telex?, hx]
  unfold State.leaveEntry
  rw [ht]
  dsimp only
  rw [hm]
  dsimp only
  split
  · rfl
  · rw [State.freeEmptyEntry, State.modEntry, State.modLine_modLine]
    rfl

/-- A message leaves its entry on the line it names, or none does (R28). -/
theorem State.leaveEntry_cases (s : State) (i : Slot) :
    s.leaveEntry i = s ∨ ∃ r x m, s.record i = some r ∧ r.body = .telex x ∧ x.line = some m := by
  unfold State.leaveEntry
  cases hr : s.record i with
  | none => exact .inl rfl
  | some r =>
    cases hb : r.body with
    | bulletin b => left; simp [Record.telex?, hb]
    | telex x =>
      cases hl : x.line with
      | none => left; simp [Record.telex?, hb, hl]
      | some m => exact .inr ⟨r, x, m, rfl, hb, hl⟩

theorem LineWork.leaveEntry (s : State) {i : Slot} (h : cur = some i) : LineWork l cur s (s.leaveEntry i) := by
  rcases s.leaveEntry_cases i with e | ⟨r, x, m, hr, hb, hm⟩
  · rw [e]; exact .refl l cur s
  · rw [State.leaveEntry_eq hr hb hm]
    by_cases hl : m = l
    · subst hl
      exact .modCalls s fun y hy => by simp [hy, callsWithout, callsKept]
    · have same : ∀ f : Line → Line, (s.modLine m f).line l = s.line l := fun f =>
        s.line_modLine_ne f (Ne.symm hl)
      have home : r.home = some m := by simp [Record.home, Record.telex?, hb, hm]
      refine ⟨⟨by rw [same], fun k _ => ?_, fun hh => absurd (hh i r m h hr home) hl, rfl, State.recordsFrom_of_eq rfl,
        fun hc => ?_, fun he => ?_, fun j hj => ?_⟩, by rw [same]⟩
      · by_cases hk : k = m
        · subst hk; exact ⟨_, State.line_modLine_self ..⟩
        · exact ⟨(s.line k).callList, s.line_modLine_ne _ hk⟩
      · intro c j hc'; rw [same] at hc'; exact hc c j hc'
      · rw [same]; exact he
      · rw [same] at hj; exact hj

theorem LineWork.finishTelex (s : State) {i : Slot} (item : ReportItem) (h : cur = some i) :
    LineWork l cur s (s.finishTelex i item) :=
  (((PartWork.endWork s i).lineWork cur).trans (.leaveEntry _ h)).trans
    ((PartWork.addReport _ i item).lineWork cur)

theorem PartWork.returnMessages (reason : Reason) (is : List Slot) :
    ∀ s : State, PartWork l s (s.returnMessages reason is) := by
  induction is with
  | nil => exact fun s => .refl l s
  | cons i rest ih => exact fun s => ((PartWork.endWork s i).trans (.addReport _ i _)).trans (ih _)

theorem LineWork.countAttempt (s : State) (ship : Nat) (reason : Reason) :
    LineWork l cur s (s.countAttempt l ship reason) := by
  unfold State.countAttempt
  split
  · exact .refl l cur s
  · next e _ =>
    split
    · exact (LineWork.freeEntry s ship).trans ((PartWork.returnMessages reason e.messages _).lineWork cur)
    · split
      · exact .freeEntry s ship
      · exact .entryToTail s ship _

/-! ## Bulletins and the window -/

theorem PartWork.modWindow (s : State) (f : Window → Window) : PartWork l s (s.modWindow l f) :=
  .modLine s (fun _ => rfl) (fun _ => rfl) (fun _ => rfl) fun _ _ => id

theorem PartWork.modArbiter (s : State) (f : Arbiter → Arbiter) : PartWork l s (s.modArbiter l f) :=
  .modLine s (fun _ => rfl) (fun _ => rfl) (fun _ => rfl) fun _ _ => id

theorem PartWork.modCounters (s : State) (f : LineCounters → LineCounters) :
    PartWork l s (s.modCounters l f) :=
  .modLine s (fun _ => rfl) (fun _ => rfl) (fun _ => rfl) fun _ _ => id

theorem PartWork.leaveQueues (s : State) (i : Slot) : PartWork l s (s.leaveQueues l i) := by
  refine .modLine s (fun _ => rfl) (fun _ => rfl) (fun _ => rfl) fun x j hj => ?_
  simp only [Line.bulletinSlots, List.mem_append] at hj ⊢
  exact hj.imp (·.imp List.mem_of_mem_erase List.mem_of_mem_erase) List.mem_of_mem_erase

theorem Record.parts_modPart (r : Record) (m : LineId) (f : Part → Part) :
    (r.modPart m f).parts = r.parts.map fun p => if p.line = m then f p else p := by
  obtain ⟨key, state, n, loaded, seq, pages, reserved, timer, mark, waiting, body⟩ := r
  cases body <;> rfl

theorem Record.parts_dropPart (r : Record) (m : LineId) :
    (r.dropPart m).parts = r.parts.filter fun p => p.line ≠ m := by
  obtain ⟨key, state, n, loaded, seq, pages, reserved, timer, mark, waiting, body⟩ := r
  cases body <;> rfl

theorem Record.parts_countCut (r : Record) (cut : Bool) :
    (r.modBulletin fun b => { b with cutCounted := b.cutCounted || cut }).parts = r.parts := by
  obtain ⟨key, state, n, loaded, seq, pages, reserved, timer, mark, waiting, body⟩ := r
  cases body <;> rfl

/-- The parts of a record on a line, one line's part changed. -/
theorem Record.part?_modPart (r : Record) (m l : LineId) (f : Part → Part) (h : ∀ p, (f p).line = p.line) :
    (r.modPart m f).part? l = (r.part? l).map fun p => if l = m then f p else p := by
  rw [Record.part?, Record.part?, Record.parts_modPart]
  induction r.parts with
  | nil => rfl
  | cons p ps ih =>
    by_cases hl : p.line = l
    · subst hl
      by_cases hp : p.line = m <;> simp [hp, h]
    · by_cases hp : p.line = m
      · have hml : m ≠ l := fun e => hl (hp.trans e)
        simpa [hp, h, hml] using ih
      · simpa [hp, hl] using ih

/-- The parts of a record on a line, one line's part dropped. -/
theorem Record.part?_dropPart (r : Record) (m l : LineId) :
    (r.dropPart m).part? l = if l = m then none else r.part? l := by
  rw [Record.part?, Record.part?, Record.parts_dropPart]
  split
  · next h => subst h; simp
  · next h =>
    rw [List.find?_filter]
    congr 1
    funext p
    by_cases hp : p.line = l <;> simp [hp, h]

@[simp] theorem Record.home_modBulletin (r : Record) (f : Bulletin → Bulletin) :
    (r.modBulletin f).home = r.home := by
  unfold Record.modBulletin Record.home Record.telex?
  cases h : r.body <;> simp [h]

/-- A part changed that is not put on air by it. -/
theorem PartWork.modPart (s : State) (i : Slot) (m : LineId) {f : Part → Part} (line : ∀ p, (f p).line = p.line)
    (air : ∀ p, (f p).state = .onAir → p.state = .onAir) : PartWork l s (s.modPart i m f) := by
  refine .modRecord s i fun r => ⟨Record.home_modBulletin r _, ?_⟩
  rw [Record.airs, Record.part?_modPart r m l f line, Record.airs]
  cases r.part? l with
  | none => exact id
  | some p =>
    by_cases hl : l = m <;> simp [hl]
    exact air p

theorem PartWork.foldl {α : Type} {f : State → α → State} (h : ∀ t a, PartWork l t (f t a)) (as : List α) :
    ∀ s : State, PartWork l s (as.foldl f s) := by
  induction as with
  | nil => exact fun s => .refl l s
  | cons a rest ih => exact fun s => (h s a).trans (ih _)

theorem PartWork.clearPassMarks (s : State) : PartWork l s (s.clearPassMarks l) :=
  .foldl (fun t i => .modPart t i l (f := fun p => { p with passMark := false }) (fun _ => rfl) fun _ => id) _ s

theorem PartWork.closeWindow (s : State) : PartWork l s (s.closeWindow l) :=
  (PartWork.clearPassMarks s).trans
    (.modLine _ (fun _ => rfl) (fun _ => rfl) (fun _ => rfl) fun _ _ => id)

theorem PartWork.unitEnds (s : State) : PartWork l s (s.unitEnds l) := by
  unfold State.unitEnds
  split
  · have h1 : PartWork l s (s.modLine l fun x => { x with
        window := { x.window with unitsEnded := true }, arbiter := x.arbiter.endBTurn }) :=
      .modLine s (fun _ => rfl) (fun _ => rfl) (fun _ => rfl) fun _ _ => id
    dsimp only
    split
    · exact h1
    · exact h1.trans (.closeWindow _)
  · exact .refl l s

theorem PartWork.finishWithdrawal (s : State) (i : Slot) : PartWork l s (s.finishWithdrawal i) :=
  ((PartWork.endWork s i).trans (.discardBsents _ i)).trans (.addReport _ i _)

theorem PartWork.finishIfWithdrawn (s : State) (i : Slot) : PartWork l s (s.finishIfWithdrawn i) := by
  unfold State.finishIfWithdrawn
  split
  · exact .refl l s
  · split
    · exact .finishWithdrawal s i
    · exact .refl l s

theorem PartWork.withdrawPart (s : State) (i : Slot) (cut : Bool) : PartWork l s (s.withdrawPart i l cut) := by
  refine ((PartWork.leaveQueues s i).trans (.modRecord _ i fun r => ⟨?_, fun h => ?_⟩)).trans
    (.finishIfWithdrawn _ i)
  · simp [Record.dropPart]
  · rw [Record.airs, Record.part?, Record.parts_countCut, ← Record.part?, Record.part?_dropPart] at h
    simp at h

theorem PartWork.retireIfDone (s : State) (i : Slot) : PartWork l s (s.retireIfDone i) := by
  unfold State.retireIfDone
  split
  · exact .refl l s
  · split
    · exact .refl l s
    · exact (PartWork.endWork s i).trans (.freeIfSpent _ i)

/-- A slot that stands in a queue joins one: no slot is new to the queues. -/
theorem PartWork.joinQueue (h : PartWork l s t) {i : Slot} (hi : i ∈ (s.line l).bulletinSlots)
    (kind : ClassType) (cls : Nat) : PartWork l s (t.joinQueue l i kind cls) := by
  have slots : ∀ j ∈ ((t.joinQueue l i kind cls).line l).bulletinSlots,
      j = i ∨ j ∈ (t.line l).bulletinSlots := by
    intro j hj
    have split : ∀ q : List Slot, j ∈ t.joinByClass cls i q → j = i ∨ j ∈ q := by
      intro q hq
      have e := List.takeWhile_append_dropWhile (p := fun j => decide (t.classOf j ≤ cls)) (l := q)
      rw [← e]
      simp only [State.joinByClass, List.mem_append, List.mem_singleton] at hq ⊢
      tauto
    rw [State.joinQueue, State.line_modLine_self] at hj
    cases kind <;> simp only [Line.bulletinSlots, List.mem_append, List.mem_singleton] at hj ⊢
    case window => rcases hj with (hj | hj) | hj <;> [skip; have := split _ hj; skip] <;> tauto
    all_goals tauto
  refine ⟨h.toServes.trans (.modLine t fun x => by cases kind <;> rfl), ?_, ?_,
    State.recordsFrom_trans h.records (State.recordsFrom_of_eq rfl), fun j hj => ?_⟩
  · rw [State.joinQueue, State.line_modLine_self, ← h.circuit]; cases kind <;> rfl
  · rw [State.joinQueue, State.line_modLine_self, ← h.calls]; cases kind <;> rfl
  · rcases slots j hj with rfl | hj
    · exact hi
    · exact h.slots j hj

theorem PartWork.requeue (h : PartWork l s t) {i : Slot} (hi : i ∈ (s.line l).bulletinSlots)
    (kind : ClassType) (finished : Bool) : PartWork l s (t.requeue l i kind finished) := by
  have left := h.trans (.leaveQueues t i)
  unfold State.requeue
  split
  · exact left
  · split
    · exact h
    · exact left.joinQueue hi .cutIn 0
    · exact left.joinQueue hi .free 0
    · exact h

theorem PartWork.completeSending (s : State) {i : Slot} (hi : i ∈ (s.line l).bulletinSlots) :
    PartWork l s (s.completeSending l i) := by
  unfold State.completeSending
  split
  · next p b _ _ =>
    have queued : ∀ p : Part, (p.completed b.kind).state = .onAir → p.state = .onAir := by
      intro p hp
      simp only [Part.completed] at hp
      split at hp <;> cases hp
    have sent := (PartWork.modPart s i l (f := fun p => p.completed b.kind) (fun _ => rfl) queued).requeue hi
      b.kind (p.remaining.less = .times 0)
    have counted := (sent.trans (.modCounters _ fun c => { c with bulletinSendings := bump c.bulletinSendings })).trans
      (.addBsent _ i l p.remaining.less)
    dsimp only
    split
    · exact (counted.trans (.unitEnds _)).trans (.retireIfDone _ i)
    · exact counted.trans (.retireIfDone _ i)
  · exact .refl l s

theorem PartWork.restartFirst (s : State) (i : Slot) : PartWork l s (s.restartFirst l i) := by
  refine .modLine s (fun x => ?_) (fun x => ?_) (fun x => ?_) fun x j hj => ?_
  · split <;> rfl
  · split <;> rfl
  · split <;> rfl
  · split at hj
    · next h =>
      simp only [List.contains_iff_mem] at h
      simp only [Line.bulletinSlots, List.mem_append, List.mem_cons] at hj ⊢
      rcases hj with hj | rfl | hj
      · exact .inl hj
      · exact .inr h
      · exact .inr (List.mem_of_mem_erase hj)
    · exact hj

theorem PartWork.abandonSending (s : State) (i : Slot) : PartWork l s (s.abandonSending l i) :=
  (PartWork.modPart s i l (f := Part.abandoned) (fun _ => rfl) fun _ h => by cases h).trans
    (.restartFirst _ i)

theorem PartWork.stopSending (s : State) (i : Slot) : PartWork l s (s.stopSending l i) := by
  unfold State.stopSending
  split
  · exact .withdrawPart s i true
  · exact .abandonSending s i

theorem PartWork.removeWithdrawn (s : State) (i : Slot) : PartWork l s (s.removeWithdrawn l i) := by
  unfold State.removeWithdrawn
  split
  · exact .withdrawPart s i false
  · exact .refl l s

theorem PartWork.removeAllWithdrawn (s : State) : PartWork l s (s.removeAllWithdrawn l) :=
  .foldl (fun t i => .removeWithdrawn t i) _ s

theorem PartWork.dropNotice (s : State) : PartWork l s (s.dropNotice l) := .modWindow s _

theorem PartWork.endNotice (s : State) : PartWork l s (s.endNotice l) := by
  unfold State.endNotice
  split
  · exact .refl l s
  · exact (PartWork.dropNotice s).trans (.unitEnds _)

theorem PartWork.endOfMessage (s : State) (i : Slot) : PartWork l s (s.endOfMessage l i) := .modWindow s _

/-! ## The circuit -/

theorem LineWork.releaseMessage (s : State) {i : Slot} (h : cur = some i) :
    LineWork l cur s (s.releaseMessage i) := by
  unfold State.releaseMessage
  split
  · split
    · exact .finishTelex s _ h
    · exact (PartWork.modRecord s i (f := fun r => { r with state := .ready }) fun _ => ⟨rfl, id⟩).lineWork cur
  · exact .refl l cur s

theorem LineWork.releaseCurrent (s : State) {c : Circuit} (h : ∀ i, c.current = some i → cur = some i) :
    LineWork l cur s (s.releaseCurrent c) := by
  unfold State.releaseCurrent
  split
  · exact .refl l cur s
  · next i hi => exact .releaseMessage s (h i hi)

theorem LineWork.endCurrent (s : State) {c : Circuit} (h : ∀ i, c.current = some i → cur = some i) :
    LineWork l cur s (s.endCurrent l c) := by
  unfold State.endCurrent
  split
  · exact .refl l cur s
  · next i hi => exact (LineWork.releaseMessage s (h i hi)).trans ((PartWork.endOfMessage _ i).lineWork cur)

/-- A circuit may be set whose current message is the one worked on. -/
theorem LineWork.putCircuit (s : State) {c : Circuit} (h : ∀ i, c.current = some i → cur = some i) :
    LineWork l cur s (s.setCircuit l (some c)) :=
  .setCircuit s _ fun _ i e hi => h i (Option.some.inj e ▸ hi)

theorem LineWork.dropCircuit (s : State) : LineWork l cur s (s.setCircuit l none) :=
  .setCircuit s _ fun _ _ e => by cases e

theorem LineWork.count (s : State) (f : LineCounters → LineCounters) :
    LineWork l cur s (s.modCounters l f) :=
  (PartWork.modCounters s f).lineWork cur

theorem LineWork.loseCircuit (s : State) (attempt : Bool) (h : s.currentIs l cur) :
    LineWork l cur s (s.loseCircuit l attempt) := by
  unfold State.loseCircuit
  split
  · exact .refl l cur s
  · next c hc =>
    have lost := ((LineWork.dropCircuit (l := l) (cur := cur) s).trans (.count _ fun n =>
      { n with circuitsLost := bump n.circuitsLost })).trans (.endCurrent _ (h c · hc))
    dsimp only
    split
    · exact lost.trans (.countAttempt _ _ _)
    · exact lost

theorem LineWork.placeCleared (s : State) (ship : Nat) (failed : Bool) :
    LineWork l cur s (s.placeCleared l ship failed) := by
  unfold State.placeCleared
  split
  · exact .refl l cur s
  · split
    · exact .freeEntry s ship
    · split
      · exact .entryToHead s ship _
      · split
        · exact .refl l cur s
        · exact .entryToTail s ship _

theorem LineWork.completeClear (s : State) (c : Circuit) : LineWork l cur s (s.completeClear l c) := by
  unfold State.completeClear
  dsimp only
  split
  · exact (LineWork.dropCircuit s).trans (.placeCleared _ _ _)
  · exact (((LineWork.dropCircuit s).trans (.count _ fun n =>
      { n with callsFailed := bump n.callsFailed })).trans (.countAttempt _ _ _)).trans
      (.placeCleared _ _ _)

section settled

variable {c : Circuit} (h : ∀ i, c.current = some i → cur = some i)
include h

theorem LineWork.settleCall (s : State) (o : Outcome) : LineWork l cur s (s.settleCall l c o) := by
  unfold State.settleCall
  split
  · exact .putCircuit s h
  · split
    · exact .refl l cur s
    · exact ((LineWork.dropCircuit s).trans (.count _ fun n =>
        { n with callsFailed := bump n.callsFailed })).trans (.countAttempt _ _ _)

theorem LineWork.settleAlign (s : State) (o : Outcome) : LineWork l cur s (s.settleAlign l c o) := by
  refine .putCircuit s ?_
  split
  · exact h
  · split <;> exact h

theorem LineWork.settleIdent (s : State) (o : Outcome) : LineWork l cur s (s.settleIdent l c o) := by
  unfold State.settleIdent
  split
  · split
    · exact (LineWork.putCircuit s fun _ e => by cases e).trans (.count _ fun n =>
        { n with circuitsLinked := bump n.circuitsLinked })
    · exact .putCircuit s h
  · split
    · exact .refl l cur s
    · exact .putCircuit s h

theorem LineWork.notAcknowledged (s : State) (isBlock : Bool) :
    LineWork l cur s (s.notAcknowledged l c isBlock) := by
  have counted : LineWork l cur s
      (if isBlock then s.modCounters l fun n => { n with repeats := bump n.repeats } else s) := by
    split
    · exact .count s _
    · exact .refl l cur s
  unfold State.notAcknowledged
  dsimp only
  split
  · exact counted.trans (.putCircuit _ h)
  · split
    · exact counted.trans (.putCircuit _ h)
    · refine (counted.trans (.putCircuit _ ?_)).trans (.loseCircuit _ true fun d i hd hi => ?_)
      · exact h
      rw [State.setCircuit, State.line_modLine_self, Option.some.injEq] at hd
      subst hd
      exact h i hi

omit h in
theorem LineWork.deliver (s : State) {i : Slot} (hi : cur = some i) (clearAfter : Bool) :
    LineWork l cur s (s.deliver l c i clearAfter) := by
  have done := ((((LineWork.finishTelex (l := l) s .delivered hi).trans
    (.putCircuit _ (c := { c with current := none }) fun _ e => by cases e)).trans
      (.modEntry _ c.ship fun e => { e with attempts := 0 })).trans
        ((PartWork.endOfMessage _ i).lineWork cur))
  unfold State.deliver
  dsimp only
  split
  · exact done.trans (.putCircuit _ fun _ e => by cases e)
  · exact done

theorem LineWork.blockGood (s : State) {i : Slot} (hi : cur = some i) :
    LineWork l cur s (s.blockGood l c i) := by
  unfold State.blockGood
  split
  · exact .refl l cur s
  · next r _ =>
    have acked : ∀ ack, LineWork l cur s ((s.modRecord i fun r => r.modTelex fun t =>
        { t with ackCount := ack }).setCircuit l (some c.acknowledged)) := fun ack =>
      ((PartWork.modRecord s i fun r => by
        obtain ⟨key, state, n, loaded, seq, pages, reserved, timer, mark, waiting, body⟩ := r
        cases body <;> exact ⟨rfl, id⟩).lineWork cur).trans (.putCircuit _ h)
    dsimp only
    split
    · exact (acked _).trans (.deliver (c := c.acknowledged) _ hi _)
    · exact acked _

theorem LineWork.settleBlock (s : State) (o : Outcome) : LineWork l cur s (s.settleBlock l c o) := by
  unfold State.settleBlock
  split
  · split
    · exact .putCircuit s h
    · next i hi =>
      split
      · exact ((LineWork.finishTelex s _ (h i hi)).trans (.putCircuit _ fun _ e => by cases e)).trans
          ((PartWork.endOfMessage _ i).lineWork cur)
      · exact .blockGood h s (h i hi)
  · exact .notAcknowledged h s true

theorem LineWork.settleIdle (s : State) (o : Outcome) : LineWork l cur s (s.settleIdle l c o) := by
  unfold State.settleIdle
  split
  · exact .putCircuit s h
  · exact .notAcknowledged h s false

theorem LineWork.settleRephase (s : State) (o : Outcome) (hs : s.currentIs l cur) :
    LineWork l cur s (s.settleRephase l c o) := by
  unfold State.settleRephase
  split
  · exact .putCircuit s h
  · split
    · exact .putCircuit s h
    · exact .loseCircuit s true hs

theorem LineWork.settleCircuit (s : State) (ended : Cycle) (o : Outcome) (hs : s.currentIs l cur) :
    LineWork l cur s (s.settleCircuit l c ended o) := by
  unfold State.settleCircuit
  split
  · exact .settleCall h s o
  · exact .settleAlign h s o
  · exact .settleIdent h s o
  · exact .settleBlock h s o
  · exact .settleIdle h s o
  · refine .putCircuit s ?_
    unfold Circuit.afterRephase
    split <;> exact h
  · exact .settleRephase h s o hs
  · split
    · exact .refl l cur s
    · exact .completeClear s c
  · exact .refl l cur s

end settled

theorem LineWork.silenceStep (s : State) (ended : Option Cycle) (o : Option Outcome) (h : s.currentIs l cur) :
    LineWork l cur s (s.silenceStep l ended o) := by
  unfold State.silenceStep
  split
  · exact .refl l cur s
  · next c hc =>
    split
    · split
      · exact .putCircuit s (h c · hc)
      · split
        · exact .putCircuit s (h c · hc)
        · exact .loseCircuit s true h
    · exact .refl l cur s

theorem LineWork.emptiedCheck (s : State) (h : s.currentIs l cur) : LineWork l cur s (s.emptiedCheck l) := by
  unfold State.emptiedCheck
  split
  · exact .refl l cur s
  · next c hc =>
    split
    · split
      · exact (LineWork.dropCircuit s).trans (.freeEntry _ _)
      · exact .putCircuit s (h c · hc)
      · exact .putCircuit s (h c · hc)
      · exact .refl l cur s
      · exact .refl l cur s
      · exact .refl l cur s
      · exact .refl l cur s
    · exact .refl l cur s

/-! ## Settling, the per-boundary work and the mode step -/

/-- The bulletin on air stands in a queue of its line, and its part there is on air. -/
theorem State.bulletinOnAir_spec {i : Slot} (h : s.bulletinOnAir l = some i) :
    i ∈ (s.line l).bulletinSlots ∧ s.partOnAir l i = true := by
  unfold State.bulletinOnAir at h
  split at h
  · next j hj =>
    cases h
    exact ⟨List.mem_append_left _ (List.mem_append_left _ (List.mem_of_find?_eq_some hj)),
      List.find?_some hj⟩
  · refine ⟨?_, List.find?_some h⟩
    have hm := List.mem_of_find?_eq_some h
    simp only [Line.bulletinSlots, List.mem_append] at hm ⊢
    exact hm.elim (fun hw => .inl (.inr hw)) .inr

/-- No bulletin is on air where no part in the line's queues is. -/
theorem State.bulletinOnAir_none_iff :
    s.bulletinOnAir l = none ↔ ∀ i ∈ (s.line l).bulletinSlots, s.partOnAir l i = false := by
  constructor
  · intro h i hi
    unfold State.bulletinOnAir at h
    split at h
    · cases h
    · next hc =>
      simp only [Line.bulletinSlots, List.mem_append] at hi
      simp only [State.cutInOnAir, State.unitOnAir, List.find?_eq_none, List.mem_append,
        Bool.not_eq_true] at hc h
      exact hi.elim (·.elim (hc i) fun hw => h i (.inl hw)) fun hf => h i (.inr hf)
  · intro h
    cases hb : s.bulletinOnAir l with
    | none => rfl
    | some i =>
      obtain ⟨hm, ha⟩ := State.bulletinOnAir_spec hb
      rw [h i hm] at ha
      cases ha

/-- No bulletin comes on air by the work of a line before its choice. -/
theorem Frames.bulletinOnAir_none (h : Frames l cur s t) (hs : s.bulletinOnAir l = none) :
    t.bulletinOnAir l = none := by
  rw [State.bulletinOnAir_none_iff] at hs ⊢
  intro i hi
  have hair := hs i (h.slots i hi)
  rw [State.partOnAir_eq] at hair ⊢
  cases hr' : t.record i with
  | none => rfl
  | some r' =>
    obtain ⟨r, hr, -, airs⟩ := h.records i r' hr'
    simp only [hr, Option.any_some] at hair
    cases ha : r'.airs l with
    | false => simpa using ha
    | true => rw [airs ha] at hair; cases hair

/-- Settling is work of the line on the card with no outcome kept (R6). -/
theorem LineWork.settle (s : State) (ended : Option Cycle) (o : Option Outcome) (h : s.currentIs l cur) :
    LineWork l cur (s.modLine l fun x => { x with outcome := none }) (s.settle l ended o) := by
  have h' : (s.modLine l fun x => { x with outcome := none }).currentIs l cur := by
    simpa [State.currentIs] using h
  unfold State.settle
  dsimp only
  split
  · exact .refl l cur _
  · split
    · next i hi => exact (PartWork.completeSending _ (State.bulletinOnAir_spec hi).1).lineWork cur
    · exact .refl l cur _
  · exact (PartWork.endNotice _).lineWork cur
  · split
    · exact .refl l cur _
    · next c hc => exact .settleCircuit (h' c · hc) _ _ _ h'

theorem PartWork.deferralStep (s : State) : PartWork l s (s.deferralStep l) := .modWindow s _

theorem PartWork.openPending (s : State) : PartWork l s (s.openPending l) := by
  unfold State.openPending
  split
  · split
    · exact .modWindow s _
    · exact .modWindow s _
  · exact .refl l s

theorem LineWork.decreaseHolds (s : State) (before : List Entry) :
    LineWork l cur s (s.decreaseHolds l before) :=
  .modCalls s fun x h => by simp [h]

theorem LineWork.perBoundary (s : State) (before : List Entry) (ended : Option Cycle) (o : Option Outcome)
    (h : s.currentIs l cur) : LineWork l cur s (s.perBoundary l before ended o) := by
  have held := LineWork.decreaseHolds (l := l) (cur := cur) s before
  have silent := held.trans (.silenceStep _ ended o (held.current h))
  have emptied := silent.trans (.emptiedCheck _ (silent.current h))
  exact emptied.trans ((((PartWork.removeAllWithdrawn _).trans (.deferralStep _)).trans
    (.openPending _)).lineWork cur)

/-- The current message of the circuit of a line. -/
def State.currentOf (s : State) (l : LineId) : Option Slot := (s.line l).circuit.bind (·.current)

theorem State.currentIs_currentOf (s : State) (l : LineId) : s.currentIs l (s.currentOf l) := by
  intro c i hc hi
  simp [State.currentOf, hc, hi]

/-- What the stages before the mode step leave of a card (R2). -/
theorem State.lineWork_worked (s : State) (l : LineId) :
    LineWork l (s.currentOf l) (s.modLine l fun x => { x with outcome := none }) (s.worked l) := by
  have settled := LineWork.settle s (s.line l).ended (s.line l).settledWith (s.currentIs_currentOf l)
  refine settled.trans (.perBoundary _ _ _ _ (settled.current ?_))
  simpa [State.currentIs] using s.currentIs_currentOf l

/-- The bulletin on air of a line that stops keying is back in its queue, or withdrawn (R81, R85). -/
def State.bulletinStopped (s : State) (l : LineId) : State :=
  match s.bulletinOnAir l with
  | some i => s.stopSending l i
  | none => s

/-- A line that has left keying for a mode (R16, R14, R12, R104). -/
def Line.stopped (m : Mode) (x : Line) : Line :=
  { x with mode := m, keyupCount := 0, fillerRun := 0
           arbiter := { x.arbiter.endTurn with keepOffered := false } }

theorem State.stopKeying_eq (s : State) (l : LineId) (m : Mode) :
    s.stopKeying l m = (((s.bulletinStopped l).dropNotice l).stopCircuit l).modLine l (Line.stopped m) := rfl

theorem PartWork.bulletinStopped (s : State) : PartWork l s (s.bulletinStopped l) := by
  unfold State.bulletinStopped
  split
  · exact .stopSending s _
  · exact .refl l s

theorem LineWork.stopCircuit (s : State) (h : s.currentIs l cur) : LineWork l cur s (s.stopCircuit l) := by
  unfold State.stopCircuit
  split
  · exact .refl l cur s
  · next c hc =>
    have ended : LineWork l cur s (((s.setCircuit l none).releaseCurrent c).freeEmptyEntry l c.ship) :=
      ((LineWork.dropCircuit s).trans (.releaseCurrent _ (h c · hc))).trans (.freeEmptyEntry _ _)
    split
    · exact ended
    · exact ended
    · exact ended
    · exact ended
    · exact .putCircuit s (h c · hc)
    · exact .refl l cur s
    · exact .completeClear s c

/-- The line's work as it stops keying, its control fields apart (R21). -/
theorem LineWork.stopWork (s : State) (h : s.currentIs l cur) :
    LineWork l cur s (((s.bulletinStopped l).dropNotice l).stopCircuit l) := by
  have dropped := ((PartWork.bulletinStopped s).trans (.dropNotice (l := l) _)).lineWork cur
  exact dropped.trans (.stopCircuit _ (dropped.current h))

theorem Frames.modControl (s : State) {f : Line → Line} (mail : ∀ x, (f x).mail = x.mail)
    (circuit : ∀ x, (f x).circuit = x.circuit) (calls : ∀ x, (f x).callList = x.callList)
    (slots : ∀ x, (f x).bulletinSlots = x.bulletinSlots) : Frames l cur s (s.modLine l f) :=
  .modLine s mail (fun x c _ hc hi => .inl ⟨c, circuit x ▸ hc, hi⟩) (fun x h => (calls x).trans h)
    fun x _ h => slots x ▸ h

theorem Frames.stopKeying (s : State) (m : Mode) (h : s.currentIs l cur) :
    Frames l cur s (s.stopKeying l m) :=
  (LineWork.stopWork s h).toFrames.trans
    (.modControl (f := Line.stopped m) _ (fun _ => rfl) (fun _ => rfl) (fun _ => rfl) fun _ => rfl)

theorem Frames.silenceCheck (s : State) (h : s.currentIs l cur) : Frames l cur s (s.silenceCheck l) := by
  have stop : Frames l cur s (if s.silencedLine l then s.stopKeying l .silent else s) := by
    split
    · exact .stopKeying s _ h
    · exact .refl l cur s
  unfold State.silenceCheck
  split
  · exact stop
  · exact stop
  · exact stop
  · exact stop
  · split
    · exact .refl l cur s
    · exact .modControl s (fun _ => rfl) (fun _ => rfl) (fun _ => rfl) fun _ => rfl
  · exact .refl l cur s
  · exact .refl l cur s

theorem Frames.actOrder (s : State) (order : LineOrder) (h : s.currentIs l cur) :
    Frames l cur s (s.actOrder l order).1 := by
  cases order with
  | stop =>
    simp only [State.actOrder]
    split
    · exact .stopKeying s _ h
    · exact .stopKeying s _ h
    · exact .stopKeying s _ h
    · exact .stopKeying s _ h
    · exact .stopKeying s _ h
    · exact .refl l cur s
    · exact .refl l cur s
  | start =>
    simp only [State.actOrder]
    split
    · exact .modControl s (fun _ => rfl) (fun _ => rfl) (fun _ => rfl) fun _ => rfl
    · exact .refl l cur s
  | patternOn =>
    simp only [State.actOrder]
    split
    · exact .modControl (f := fun x => { x with mode := .pattern, fillerRun := 0 }) s (fun _ => rfl) (fun _ => rfl)
        (fun _ => rfl) fun _ => rfl
    · exact .refl l cur s
  | patternOff =>
    simp only [State.actOrder]
    split
    · exact .modControl s (fun _ => rfl) (fun _ => rfl) (fun _ => rfl) fun _ => rfl
    · exact .refl l cur s

theorem Frames.orderStep (s : State) (h : s.currentIs l cur) : Frames l cur s (s.orderStep l).1 := by
  unfold State.orderStep
  split
  · exact .refl l cur s
  · have cleared : Frames l cur s (s.modLine l fun x => { x with held := none }) :=
      .modControl s (fun _ => rfl) (fun _ => rfl) (fun _ => rfl) fun _ => rfl
    exact cleared.trans (.actOrder _ _ (cleared.current h))

theorem Frames.keyingCheck (s : State) : Frames l cur s (s.keyingCheck l) := by
  unfold State.keyingCheck
  split
  · exact .modControl s (fun _ => rfl) (fun _ => rfl) (fun _ => rfl) fun _ => rfl
  · exact .refl l cur s

/-- What the mode step leaves of a card (R2, stage 3). -/
theorem Frames.modeStep (s : State) (h : s.currentIs l cur) : Frames l cur s (s.modeStep l).1 := by
  have silent := Frames.silenceCheck s h
  exact (silent.trans (.orderStep _ (silent.current h))).trans (.keyingCheck _)

end Sys2Proof.Machine

namespace Sys2Proof.Machine

variable {l : LineId} {s t : State}

/-! ## The choice -/

/-- The answered cycles of a circuit but CALL, whose records carry one of its offsets (R3). -/
def Cycle.carriesOffset : Cycle → Bool
  | .align | .ident | .block _ | .idleblock | .park | .keep => true
  | .unkeyed | .keyup | .filler | .call _ | .rephase | .clear | .bhead _ _ _ | .btext _ | .bend | .bbroken
  | .notice | .pattern => false

/-- What any source of an ACTIVE line can do (R105): the other lines and the queue stand; a circuit's answered
cycle comes from a line with a circuit; and the control fields stand but for FILLER, which counts in
filler-run, and the REST after the 8th (R12, R120). -/
structure Served (l : LineId) (s : State) (p : State × Cycle) : Prop where
  others : ∀ m, m ≠ l → p.1.line m = s.line m
  queue : p.1.queue = s.queue
  circuit : p.2.carriesOffset = true → (p.1.line l).circuit ≠ none
  unkeyup : p.2 ≠ .keyup
  control : (p.1.line l).control = (s.line l).control
    ∨ (p.2 = .filler ∧ (s.line l).fillerRun < 8
        ∧ (p.1.line l).control = { (s.line l).control with fillerRun := (s.line l).fillerRun + 1 })
    ∨ (p.2 = .unkeyed ∧ 8 ≤ (s.line l).fillerRun
        ∧ (p.1.line l).control = { (s.line l).control with fillerRun := 0, mode := .rest })

variable {p : State × Cycle} {c : Circuit}

theorem Serves.served {cycle : Cycle} (h : Serves l s t) (unkeyup : cycle ≠ .keyup)
    (circuit : cycle.carriesOffset = true → (t.line l).circuit ≠ none) : Served l s (t, cycle) :=
  ⟨h.others, h.queue, circuit, unkeyup, .inl h.control⟩

theorem Served.after (h1 : Serves l s t) (h2 : Served l t p) : Served l s p := by
  have run : (t.line l).fillerRun = (s.line l).fillerRun := (Line.control_eq_iff.mp h1.control).2.2.2.2.1
  refine ⟨fun m hm => (h2.others m hm).trans (h1.others m hm), h2.queue.trans h1.queue, h2.circuit,
    h2.unkeyup, ?_⟩
  have control := h2.control
  rwa [run, h1.control] at control

theorem Served.counted (h : Served l s p) : Served l s (countedTurn l p) := by
  have line : ∃ a, ((countedTurn l p).1.line l) = { p.1.line l with arbiter := a } :=
    ⟨_, State.line_modLine_self ..⟩
  obtain ⟨a, line⟩ := line
  exact ⟨fun m hm => (State.line_modLine_ne _ _ hm).trans (h.others m hm), h.queue,
    fun hc => line ▸ h.circuit hc, h.unkeyup, line ▸ h.control⟩

/-- A circuit set, or a change beside the control fields, before a cycle of the circuit. -/
theorem Serves.setCircuit (s : State) (c : Option Circuit) : Serves l s (s.setCircuit l c) :=
  .modLine s fun _ => rfl

theorem State.setCircuit_some_circuit (s : State) (l : LineId) (c : Circuit) :
    ((s.setCircuit l (some c)).line l).circuit ≠ none := by
  simp [State.setCircuit]

theorem Served.setCircuit (s : State) (c : Circuit) {cycle : Cycle} (h : cycle ≠ .keyup) :
    Served l s (s.setCircuit l (some c), cycle) :=
  (Serves.setCircuit s _).served h fun _ => s.setCircuit_some_circuit l c

theorem State.formCycle_plain (s : State) (r : Record) (step : Nat) :
    s.formCycle r step ≠ .keyup ∧ (s.formCycle r step).carriesOffset = false := by
  unfold State.formCycle
  split
  · exact ⟨nofun, rfl⟩
  · split <;> exact ⟨nofun, rfl⟩

theorem Serves.modPart (s : State) (i : Slot) (m : LineId) (f : Part → Part) : Serves l s (s.modPart i m f) :=
  .of_lines rfl rfl

theorem Served.formed (h : Serves l s t) (r : Option Record) (step : Nat) :
    Served l s (match r with
      | some r => (t, s.formCycle r step)
      | none => (t, .filler)) := by
  cases r with
  | none => exact h.served nofun nofun
  | some r =>
    obtain ⟨hk, ho⟩ := s.formCycle_plain r step
    exact h.served hk (by simp [ho])

theorem Served.beginSending (s : State) (i : Slot) : Served l s (s.beginSending l i) := by
  have h := Served.formed (Serves.modPart (l := l) s i l fun p => { p with state := .onAir, formStep := 1 })
    (s.record i) 1
  unfold State.beginSending
  dsimp only
  split <;> simp_all

theorem Served.continueSending (s : State) (i : Slot) : Served l s (s.continueSending l i) := by
  have h := fun step => Served.formed (Serves.modPart (l := l) s i l fun p => { p with formStep := step })
    (s.record i) step
  unfold State.continueSending
  dsimp only
  split <;> simp_all

theorem Served.handNotice (s : State) : Served l s (s.handNotice l) :=
  (PartWork.modWindow s _).toServes.served nofun nofun

theorem Served.startCall (s : State) (ship : Nat) : Served l s (s.startCall l ship) :=
  have called : Serves l s (s.startCall l ship).1 :=
    (Serves.setCircuit s (some (.newCall ship))).trans
      (.modLine (f := fun x => { x with callList := x.callList.map fun e =>
        if e.ship = ship then { e with recalled := false } else e }) _ fun _ => rfl)
  called.served nofun nofun

/-! ### The cycles of a circuit -/

theorem Served.handKeep (s : State) (h : (s.line l).circuit ≠ none) : Served l s (s.handKeep l) :=
  (PartWork.modCounters s _).toServes.served nofun fun _ => by
    rw [(PartWork.modCounters (l := l) s _).circuit]; exact h

theorem Served.handPark (s : State) (c : Circuit) : Served l s (s.handPark l c) := .setCircuit s _ nofun

theorem Served.handOperation (s : State) (h : (s.line l).circuit ≠ none) (c : Circuit) :
    Served l s (s.handOperation l c) := by
  unfold State.handOperation
  split
  · exact .setCircuit s _ nofun
  · exact (Serves.refl l s).served nofun fun _ => h
  · exact .setCircuit s _ nofun
  · split
    · exact .setCircuit s _ nofun
    · exact (Serves.refl l s).served nofun fun _ => h
  · exact .setCircuit s _ nofun
  · exact (Serves.refl l s).served nofun fun _ => h
  · exact (Serves.refl l s).served nofun fun _ => h

/-- A BLOCK handed by a circuit just set (R36, R46). -/
theorem Served.blockSent (h : Serves l s t) (c : Circuit) (chars : List Byte) :
    Served l s ((t.setCircuit l (some c)).bumpBlocks l, .block chars) :=
  ((h.trans (.setCircuit t _)).trans (PartWork.modCounters _ _).toServes).served nofun fun _ => by
    have stands := (PartWork.modCounters (l := l) (t.setCircuit l (some c)) fun n =>
      { n with blocksSent := bump n.blocksSent }).circuit
    exact fun none => t.setCircuit_some_circuit l c (stands.symm.trans none)

theorem Served.handBlock (s : State) (h : (s.line l).circuit ≠ none) (c : Circuit) (i : Slot) :
    Served l s (s.handBlock l c i) := by
  unfold State.handBlock
  split
  · exact (Serves.refl l s).served nofun fun _ => h
  · have aired : Serves l s (s.modRecord i fun r =>
        if r.state = .ready then { r with state := .onAir } else r) := .of_lines rfl rfl
    exact .blockSent aired _ _

theorem Served.handCut (s : State) (c : Circuit) : Served l s (s.handCut l c) :=
  .blockSent (.refl l s) _ _

theorem Served.handIdle (s : State) (c : Circuit) : Served l s (s.handIdle l c) := by
  unfold State.handIdle
  split
  · exact .setCircuit s _ nofun
  · exact .setCircuit s _ nofun

theorem Served.handTraffic (s : State) (h : (s.line l).circuit ≠ none) (c : Circuit) :
    Served l s (s.handTraffic l c) := by
  unfold State.handTraffic
  split
  · exact .handCut s c
  · split
    · exact .handBlock s h c _
    · split
      · exact .handIdle s _
      · exact .handIdle s c

/-! ### The sources, from the last up to the first -/

theorem Served.serveFiller (s : State) : Served l s (s.serveFiller l) := by
  unfold State.serveFiller
  dsimp only
  split
  · next h =>
    exact ⟨fun m hm => s.line_modLine_ne _ hm, rfl, nofun, nofun,
      .inr (.inl ⟨rfl, h, by rw [State.line_modLine_self]; rfl⟩)⟩
  · next h =>
    split
    · exact ⟨fun m hm => s.line_modLine_ne _ hm, rfl, nofun, nofun,
        .inr (.inr ⟨rfl, Nat.not_lt.mp h, by rw [State.line_modLine_self]; rfl⟩)⟩
    · exact (Serves.refl l s).served nofun nofun

theorem Served.serveFree (s : State) : Served l s (s.serveFree l) := by
  unfold State.serveFree
  split
  · exact .beginSending s _
  · exact .serveFiller s

theorem Served.serveCall (s : State) : Served l s (s.serveCall l) := by
  unfold State.serveCall
  split
  · exact .startCall s _
  · exact .serveFree s

theorem Served.serveTraffic (s : State) : Served l s (s.serveTraffic l) := by
  unfold State.serveTraffic
  split
  · next c hc =>
    split
    · exact (Served.handTraffic s (by simp [hc]) c).counted
    · exact .serveCall s
  · exact .serveCall s

theorem Served.beginUnit (s : State) (a : WindowAnswer) : Served l s (s.beginUnit l a) := by
  unfold State.beginUnit
  split
  · exact .beginSending s _
  · exact .handNotice s
  · exact .serveTraffic s

theorem Served.readTable (s : State) (h : (s.line l).circuit ≠ none) (c : Circuit) :
    Served l s (s.readTable l c) := by
  have read := PartWork.modArbiter (l := l) s fun a =>
    { a with phasePointer := (s.line l).arbiter.phasePointer + 1, keepOffered := false }
  have turned := fun f => read.trans (.modArbiter _ f)
  unfold State.readTable
  dsimp only
  split
  · exact (Served.after (turned _).toServes (.handTraffic _ ((turned _).circuit ▸ h) c)).counted
  · split
    · exact .after (read.trans (.closeWindow _)).toServes (.serveTraffic _)
    · split
      · exact .after (turned _).toServes (.handPark _ c)
      · exact .after (turned _).toServes (.beginUnit _ _)

theorem Served.askWithoutCircuit (s : State) : Served l s (s.askWithoutCircuit l) := by
  have asked := PartWork.modArbiter (l := l) s fun a => { a with keepOffered := false }
  unfold State.askWithoutCircuit
  dsimp only
  split
  · exact .after (asked.trans (.closeWindow _)).toServes (.serveCall _)
  · exact .after asked.toServes (.beginUnit _ _)

theorem Served.unitOfTurn (s : State) : Served l s (s.unitOfTurn l) := by
  unfold State.unitOfTurn
  split
  · exact .after (PartWork.closeWindow s).toServes (.serveTraffic _)
  · exact .after (PartWork.modArbiter s _).toServes (.beginUnit _ _)

theorem Served.unitBoundary (s : State) (h : (s.line l).circuit ≠ none) (c : Circuit) :
    Served l s (s.unitBoundary l c) := by
  unfold State.unitBoundary
  split
  · exact .handTraffic s h c
  · split
    · have offered := PartWork.modArbiter (l := l) s fun a => { a with keepOffered := true }
      exact .after offered.toServes (.handKeep _ (offered.circuit ▸ h))
    · exact .readTable s h c

theorem Served.serveWindow (s : State) : Served l s (s.serveWindow l) := by
  unfold State.serveWindow
  dsimp only
  split
  · split
    · exact .serveTraffic s
    · split
      · exact .serveTraffic s
      · exact .unitOfTurn s
    · split
      · exact .askWithoutCircuit s
      · next c hc =>
        split
        · exact .unitBoundary s (by simp [hc]) c
        · exact .serveTraffic s
  · exact .serveTraffic s

theorem Served.serveUnit (s : State) : Served l s (s.serveUnit l) := by
  unfold State.serveUnit
  split
  · exact .continueSending s _
  · split
    · exact .serveWindow s
    · exact .handNotice s

theorem Served.prepareCutIn (s : State) (i : Slot) : Served l s (s.prepareCutIn l i) := by
  have ended := PartWork.modArbiter (l := l) s fun a => { a.endTurn with keepOffered := false }
  unfold State.prepareCutIn
  dsimp only
  split
  · exact (ended.trans (.abandonSending _ _)).toServes.served nofun nofun
  · have dropped := (ended.trans (.dropNotice _)).toServes
    split
    · exact .after dropped (.beginSending _ i)
    · split
      · exact .after (dropped.trans (.setCircuit _ _)) (.beginSending _ i)
      · split
        · exact .after dropped (.handPark _ _)
        · exact .after dropped (.handIdle _ _)
      all_goals exact .after dropped (.beginSending _ i)

theorem Served.serveCutIn (s : State) : Served l s (s.serveCutIn l) := by
  unfold State.serveCutIn
  split
  · exact .continueSending s _
  · split
    · exact .prepareCutIn s _
    · exact .serveUnit s

theorem Served.breakSending (s : State) (i : Slot) : Served l s (s.breakSending l i) := by
  have withdrawn := PartWork.withdrawPart (l := l) s i true
  unfold State.breakSending
  dsimp only
  split
  · exact (withdrawn.trans (.unitEnds _)).toServes.served nofun nofun
  · exact withdrawn.toServes.served nofun nofun

theorem Served.serveCut (s : State) : Served l s (s.serveCut l) := by
  unfold State.serveCut
  split
  · exact (Served.handCut s _).counted
  · split
    · exact .breakSending s _
    · exact .serveCutIn s

theorem Served.serveKeep (s : State) : Served l s (s.serveKeep l) := by
  unfold State.serveKeep
  split
  · next h => exact .handKeep s fun hc => by simp [hc] at h
  · exact .serveCut s

theorem Served.serveOperation (s : State) : Served l s (s.serveOperation l) := by
  unfold State.serveOperation
  split
  · next c h => exact (Served.handOperation s (fun hc => by simp [hc] at h) c).counted
  · exact .serveKeep s

theorem PartWork.endTests (s : State) : PartWork l s (s.endTests l) := by
  unfold State.endTests
  exact iteInduction (fun _ => .modArbiter s _) fun _ => .refl l s

/-- The choice of an ACTIVE line (R105): what its source does, and filler-run at 0 for another cycle than
FILLER (R12). -/
theorem State.chooseCycle_served (s : State) (l : LineId) :
    ∃ p, Served l s p ∧ (s.chooseCycle l).2 = p.2
      ∧ (s.chooseCycle l).1
        = if p.2 = .filler then p.1 else p.1.modLine l fun x => { x with fillerRun := 0 } :=
  ⟨(s.endTests l).serveOperation l, .after (PartWork.endTests s).toServes (.serveOperation _), rfl, rfl⟩

end Sys2Proof.Machine

namespace Sys2Proof.Machine

variable {l : LineId} {s t : State} {cur : Option Slot}

/-! ## The end of a boundary: reports, answers and the hand-over -/

/-- Only a discarded TAKE has an owner to be told (R173). -/
theorem State.tellDiscard_of_ne_take {p : Payload} (h : ∀ k, p ≠ .take k) : s.tellDiscard p = s := by
  unfold State.tellDiscard
  split
  · exact absurd rfl (h _)
  · rfl

/-- A LINESTATE offered touches the queue and one card counter alone: it displaces no TAKE, whose precedence
is lower (R172, R173). -/
theorem State.offerLineState_frame (s : State) (l : LineId) (dest : Station) (m : Mode) (r : OrderResult) :
    (s.offerLineState l dest m r).lines = s.lines ∧ (s.offerLineState l dest m r).records = s.records
      ∧ (s.offerLineState l dest m r).reports = s.reports := by
  rw [State.offerLineState]
  obtain ⟨-, lines, reports, -⟩ := s.offerFrame_frame ⟨dest, .lineState l m r⟩
  refine ⟨lines, ?_, reports⟩
  rcases s.offerFrame_cases ⟨dest, .lineState l m r⟩ with ⟨-, e⟩ | ⟨-, -, e⟩ | ⟨j, v, -, hv, hj, e⟩
  · rw [e]
  · rw [e]; rfl
  · obtain ⟨v', hv', -, low, -⟩ := victim_spec hv
    obtain rfl : v = v' := Option.some.inj (hj.symm.trans hv')
    rw [e, State.tellDiscard_of_ne_take fun k hk => ?_]
    · rfl
    · rw [Queued.precedence, hk] at low
      simp [Payload.precedence] at low

/-- With room in the queue a LINESTATE takes its place (R172). -/
theorem State.offerLineState_room {dest : Station} {m : Mode} {r : OrderResult}
    (h : s.queue.length < Config.queueLimit) :
    s.offerLineState l dest m r = { s with queue := enqueue ⟨dest, .lineState l m r⟩ s.queue } := by
  rw [State.offerLineState, State.offerFrame, if_pos h]

/-- A frame in its place is in the queue. -/
theorem mem_enqueue_self (f : Frame) (q : List Queued) : (⟨f, false⟩ : Queued) ∈ enqueue f q :=
  (perm_enqueue f q).symm.subset (List.mem_cons_self ..)

theorem mem_enqueue_of_mem {f : Frame} {q : List Queued} {e : Queued} (h : e ∈ q) : e ∈ enqueue f q :=
  (perm_enqueue f q).symm.subset (List.mem_cons_of_mem _ h)

/-- A frame offered behind another of its precedence stands behind it (R172). -/
theorem sublist_enqueue_enqueue {f g : Frame} (h : f.payload.precedence ≤ g.payload.precedence)
    (q : List Queued) :
    [(⟨f, false⟩ : Queued), ⟨g, false⟩].Sublist (enqueue g (enqueue f q)) := by
  have mono : ∀ e : Queued, e.precedence ≤ f.payload.precedence → e.precedence ≤ g.payload.precedence :=
    fun e he => he.trans h
  have front : (⟨f, false⟩ : Queued) ∈ (enqueue f q).takeWhile fun e => e.precedence ≤ g.payload.precedence := by
    rw [enqueue, List.append_assoc, List.takeWhile_append_of_pos, List.singleton_append,
      List.takeWhile_cons_of_pos]
    · simp
    · exact decide_eq_true h
    · intro e he
      simpa using mono e (by simpa using List.mem_takeWhile_imp he)
  rw [enqueue]
  exact ((List.singleton_sublist.mpr front).append (List.Sublist.refl _)).trans
    (List.sublist_append_left ..)

/-- A frame of a LINESTATE's precedence or a lower one stays as a LINESTATE is offered (R173). -/
theorem State.mem_offerLineState {dest : Station} {m : Mode} {r : OrderResult} {e : Queued} (h : e ∈ s.queue)
    (low : e.precedence ≤ 3) : e ∈ (s.offerLineState l dest m r).queue := by
  rw [State.offerLineState]
  rcases s.offerFrame_cases ⟨dest, .lineState l m r⟩ with ⟨-, eq⟩ | ⟨-, -, eq⟩ | ⟨j, v, -, hv, hj, eq⟩
  · rw [eq]; exact mem_enqueue_of_mem h
  · rw [eq, (State.tellDiscard_frame _ _).2.1]; exact h
  · rw [eq, (State.tellDiscard_frame _ _).2.1]
    obtain ⟨v', hv', -, above, -⟩ := victim_spec hv
    obtain rfl : v = v' := Option.some.inj (hj.symm.trans hv')
    refine mem_enqueue_of_mem (List.mem_eraseIdx_iff_getElem?.mpr ?_)
    obtain ⟨i, hi⟩ := List.mem_iff_getElem?.mp h
    refine ⟨i, fun eq => ?_, hi⟩
    subst eq
    obtain rfl : e = v := Option.some.inj (hi.symm.trans hj)
    exact absurd above (Nat.not_lt.mpr low)

/-- Handing reports touches no line. -/
theorem State.handReports_lines (s : State) : s.handReports.lines = s.lines :=
  State.handReports_keeps (P := fun t => t.lines = s.lines)
    (fun t h => t.handReport_frame.2.1.trans h) s rfl

/-- Handing reports leaves the queue as long as it was, or at 17 at most (R144). -/
theorem State.handReports_room (s : State) {n : Nat} (h : s.queue.length ≤ n) (hn : Config.reportLimit < n) :
    s.handReports.queue.length ≤ n := by
  refine State.handReports_keeps (P := fun t => t.queue.length ≤ n) (fun t ht => ?_) s h
  unfold State.handReport
  split
  · exact ht
  · next p rest _ =>
    split
    · next room =>
      split
      · exact ht
      · next r _ =>
        have q : (enqueue (reportFrame t r p.item) t.queue).length ≤ n := by rw [length_enqueue]; omega
        rcases State.freeIfSpent_cases
          { t with reports := rest, queue := enqueue (reportFrame t r p.item) t.queue } p.slot with
          e | ⟨_, -, -, -, e⟩ <;> rw [e] <;> exact q
    · exact ht

/-- The silence answer taken up: the answers that wait leave the lines so (R20). -/
theorem State.answer_frame (s : State) (l : LineId) (m : Mode) (order : Option (Station × OrderResult)) :
    (s.answer l m order).lines = (s.modLine l fun x => { x with silenceAnswer := none }).lines
      ∧ (s.answer l m order).records = s.records ∧ (s.answer l m order).reports = s.reports := by
  have silence : ∀ u : State, u = (match (s.line l).silenceAnswer with
      | none => s
      | some dest => (s.modLine l fun x => { x with silenceAnswer := none }).offerLineState l dest m .accepted) →
      u.lines = (s.modLine l fun x => { x with silenceAnswer := none }).lines
        ∧ u.records = s.records ∧ u.reports = s.reports := by
    rintro u rfl
    split
    · next h =>
      refine ⟨?_, rfl, rfl⟩
      have same : { s.line l with silenceAnswer := none } = s.line l := by rw [← h]
      rw [State.modLine, same, State.setLine]
      exact (Vector.set_getElem_self _).symm
    · exact State.offerLineState_frame _ _ _ _ _
  unfold State.answer
  dsimp only
  split
  · exact silence _ rfl
  · obtain ⟨lines, records, reports⟩ := silence _ rfl
    obtain ⟨lines', records', reports'⟩ := State.offerLineState_frame _ l _ m _
    exact ⟨lines'.trans lines, records'.trans records, reports'.trans reports⟩

/-- The silence answer is queued where the queue has room (R20). -/
theorem State.mem_answer_silence {m : Mode} {order : Option (Station × OrderResult)} {d : Station}
    (h : (s.line l).silenceAnswer = some d) (room : s.queue.length < Config.queueLimit) :
    (⟨⟨d, .lineState l m .accepted⟩, false⟩ : Queued) ∈ (s.answer l m order).queue := by
  have first : (⟨⟨d, .lineState l m .accepted⟩, false⟩ : Queued)
      ∈ ((s.modLine l fun x => { x with silenceAnswer := none }).offerLineState l d m .accepted).queue := by
    rw [State.offerLineState_room (s := s.modLine l fun x => { x with silenceAnswer := none }) room]
    exact mem_enqueue_self _ _
  unfold State.answer
  rw [h]
  cases order with
  | none => exact first
  | some o => exact State.mem_offerLineState first le_rfl

/-- The answer to a held order is queued where the queue has room for two, behind the silence answer (R20). -/
theorem State.mem_answer_order {m : Mode} {dest : Station} {r : OrderResult}
    (room : s.queue.length + 1 < Config.queueLimit) :
    (⟨⟨dest, .lineState l m r⟩, false⟩ : Queued) ∈ (s.answer l m (some (dest, r))).queue
      ∧ ∀ d, (s.line l).silenceAnswer = some d →
        [(⟨⟨d, .lineState l m .accepted⟩, false⟩ : Queued), ⟨⟨dest, .lineState l m r⟩, false⟩].Sublist
          (s.answer l m (some (dest, r))).queue := by
  have one : s.queue.length < Config.queueLimit := by omega
  unfold State.answer
  cases hs : (s.line l).silenceAnswer with
  | none =>
    dsimp only
    rw [State.offerLineState_room one]
    exact ⟨mem_enqueue_self _ _, nofun⟩
  | some d =>
    dsimp only
    rw [State.offerLineState_room (s := s.modLine l fun x => { x with silenceAnswer := none }) one,
      State.offerLineState_room (by rw [length_enqueue]; exact room)]
    refine ⟨mem_enqueue_self _ _, fun d' hd => ?_⟩
    obtain rfl := Option.some.inj hd
    exact sublist_enqueue_enqueue (f := ⟨d, .lineState l m .accepted⟩) (g := ⟨dest, .lineState l m r⟩)
      (Nat.le_refl 3) _

/-- A report handed as the boundary ends stands in the queue after the answers: it was handed at 16 frames or
fewer (R144). -/
theorem State.mem_answer_of_room {m : Mode} {order : Option (Station × OrderResult)} {e : Queued}
    (h : e ∈ s.queue) (room : s.queue.length + 1 < Config.queueLimit) : e ∈ (s.answer l m order).queue := by
  have one : s.queue.length < Config.queueLimit := by omega
  unfold State.answer
  cases hs : (s.line l).silenceAnswer with
  | none =>
    cases order with
    | none => exact h
    | some o =>
      dsimp only
      rw [State.offerLineState_room one]
      exact mem_enqueue_of_mem h
  | some d =>
    cases order with
    | none =>
      dsimp only
      rw [State.offerLineState_room (s := s.modLine l fun x => { x with silenceAnswer := none }) one]
      exact mem_enqueue_of_mem h
    | some o =>
      dsimp only
      rw [State.offerLineState_room (s := s.modLine l fun x => { x with silenceAnswer := none }) one,
        State.offerLineState_room (by rw [length_enqueue]; exact room)]
      exact mem_enqueue_of_mem (mem_enqueue_of_mem h)

/-- The end of a boundary: reports, the answers that waited, and the record handed (R144, R20, R3). -/
def State.finish (s : State) (l : LineId) (m : Mode) (order : Option (Station × OrderResult)) (c : Cycle) :
    State :=
  (s.handReports.answer l m order).handOver l c

/-- The mode a LINESTATE of a boundary carries (R20, log 9): `s` after the mode step, `t` after the choice. -/
def answeredMode (l : LineId) (s t : State) : Mode :=
  if (s.line l).mode = .active then .active else (t.line l).mode

/-- The card after the mode step of a line's boundary (R2, stage 3). -/
@[irreducible] def State.stepped (s : State) (l : LineId) : State := ((s.worked l).modeStep l).1

theorem State.stepped_eq (s : State) (l : LineId) : s.stepped l = ((s.worked l).modeStep l).1 := by
  unfold State.stepped
  exact rfl

/-- The card after the choice of a line's boundary, and the cycle chosen (R2, stage 4). -/
@[irreducible] def State.chosen (s : State) (l : LineId) : State × Cycle := (s.stepped l).choice l

theorem State.chosen_eq (s : State) (l : LineId) : s.chosen l = (s.stepped l).choice l := by
  unfold State.chosen
  exact rfl

/-- A boundary, in the stages of R2. -/
theorem State.boundary_eq (s : State) (l : LineId) :
    s.boundary l = (s.chosen l).1.finish l (answeredMode l (s.stepped l) (s.chosen l).1)
      ((s.worked l).modeStep l).2 (s.chosen l).2 := by
  rw [State.chosen_eq, State.stepped_eq]
  rfl

theorem exec_boundary (s : State) (l : LineId) (h : s.phase = .settled) :
    exec (.boundary l) s = .next (s.boundary l) := by
  show execBoundary l s = _
  rw [execBoundary, if_pos h]

/-- A line with its silence answer taken up and a cycle handed under a tag (R3, R20). -/
def Line.handed (x : Line) (tag : Fin 8) (c : Cycle) : Line :=
  { x with silenceAnswer := none, cycle := some { tag := tag, windowOffset := x.offsetFor c, cycle := c } }

section handed

variable (x : Line) (tag : Fin 8) (c : Cycle)

@[simp] theorem Line.handed_mode : (x.handed tag c).mode = x.mode := rfl
@[simp] theorem Line.handed_cycle :
    (x.handed tag c).cycle = some { tag := tag, windowOffset := x.offsetFor c, cycle := c } := rfl
@[simp] theorem Line.handed_outcome : (x.handed tag c).outcome = x.outcome := rfl
@[simp] theorem Line.handed_keyupCount : (x.handed tag c).keyupCount = x.keyupCount := rfl
@[simp] theorem Line.handed_fillerRun : (x.handed tag c).fillerRun = x.fillerRun := rfl
@[simp] theorem Line.handed_held : (x.handed tag c).held = x.held := rfl
@[simp] theorem Line.handed_silenceAnswer : (x.handed tag c).silenceAnswer = none := rfl
@[simp] theorem Line.handed_circuit : (x.handed tag c).circuit = x.circuit := rfl
@[simp] theorem Line.handed_callList : (x.handed tag c).callList = x.callList := rfl
@[simp] theorem Line.handed_window : (x.handed tag c).window = x.window := rfl
@[simp] theorem Line.handed_arbiter : (x.handed tag c).arbiter = x.arbiter := rfl

end handed

/-- What the end of a boundary leaves of its line. -/
theorem State.finish_line (s : State) (l : LineId) (m : Mode) (order : Option (Station × OrderResult))
    (c : Cycle) : (s.finish l m order c).line l = (s.line l).handed (s.line l).nextTag c := by
  have line : (s.handReports.answer l m order).line l = { s.line l with silenceAnswer := none } := by
    rw [State.line_congr (s.handReports.answer_frame l m order).1, State.line_modLine_self,
      State.line_congr s.handReports_lines]
  rw [State.finish, State.handOver, State.line_modLine_self, line]
  rfl

theorem State.finish_line_ne (s : State) {l k : LineId} (h : k ≠ l) (m : Mode)
    (order : Option (Station × OrderResult)) (c : Cycle) : (s.finish l m order c).line k = s.line k := by
  rw [State.finish, State.handOver, State.line_modLine_ne _ _ h,
    State.line_congr (s.handReports.answer_frame l m order).1, State.line_modLine_ne _ _ h,
    State.line_congr s.handReports_lines]

/-- The end of a boundary changes records only by the reports it hands (R145). -/
theorem State.finish_records (s : State) (l : LineId) (m : Mode) (order : Option (Station × OrderResult))
    (c : Cycle) : (s.finish l m order c).records = s.handReports.records :=
  (s.handReports.answer_frame l m order).2.1

theorem State.finish_queue (s : State) (l : LineId) (m : Mode) (order : Option (Station × OrderResult))
    (c : Cycle) : (s.finish l m order c).queue = (s.handReports.answer l m order).queue := rfl

/-- The lines and records at the end of a boundary do not depend on the answers. -/
theorem State.finish_congr (s : State) (l : LineId) (m m' : Mode)
    (order order' : Option (Station × OrderResult)) (c : Cycle) :
    (s.finish l m order c).lines = (s.finish l m' order' c).lines
      ∧ (s.finish l m order c).records = (s.finish l m' order' c).records := by
  refine ⟨?_, by rw [State.finish_records, State.finish_records]⟩
  have lines : (s.handReports.answer l m order).lines = (s.handReports.answer l m' order').lines :=
    (State.answer_frame _ l m order).1.trans (State.answer_frame _ l m' order').1.symm
  simp only [State.finish, State.handOver, State.modLine, State.setLine, State.line, lines]

/-! ## A boundary as its line sees it -/

/-- The choice leaves the mail and the held order of its line, the other lines, and the queue. -/
theorem State.choice_frame (s : State) (l : LineId) :
    ((s.choice l).1.line l).mail = (s.line l).mail ∧ ((s.choice l).1.line l).held = (s.line l).held
      ∧ (∀ m, m ≠ l → (s.choice l).1.line m = s.line m) ∧ (s.choice l).1.queue = s.queue := by
  have mod : ∀ f : Line → Line, (f (s.line l)).mail = (s.line l).mail → (f (s.line l)).held = (s.line l).held →
      ((s.modLine l f).line l).mail = (s.line l).mail ∧ ((s.modLine l f).line l).held = (s.line l).held
        ∧ (∀ m, m ≠ l → (s.modLine l f).line m = s.line m) ∧ (s.modLine l f).queue = s.queue :=
    fun f hm hh => ⟨by rw [State.line_modLine_self, hm], by rw [State.line_modLine_self, hh],
      fun m h => s.line_modLine_ne f h, rfl⟩
  unfold State.choice
  split
  · exact ⟨rfl, rfl, fun _ _ => rfl, rfl⟩
  · exact ⟨rfl, rfl, fun _ _ => rfl, rfl⟩
  · exact ⟨rfl, rfl, fun _ _ => rfl, rfl⟩
  · exact ⟨rfl, rfl, fun _ _ => rfl, rfl⟩
  · exact mod _ rfl rfl
  · unfold State.restCheck
    split
    · exact mod _ rfl rfl
    · exact ⟨rfl, rfl, fun _ _ => rfl, rfl⟩
  · obtain ⟨p, served, -, chosen⟩ := s.chooseCycle_served l
    have kept : (p.1.line l).mail = (s.line l).mail ∧ (p.1.line l).held = (s.line l).held := by
      rcases served.control with h | ⟨-, -, h⟩ | ⟨-, -, h⟩ <;>
        simp only [Line.control, Line.mk.injEq] at h <;> simp [Line.mail, h]
    rw [chosen]
    split
    · exact ⟨kept.1, kept.2, served.others, served.queue⟩
    · exact ⟨by rw [State.line_modLine_self]; exact kept.1, by rw [State.line_modLine_self]; exact kept.2,
        fun m h => (State.line_modLine_ne _ _ h).trans (served.others m h), served.queue⟩

/-- A line that stops keying: its control fields, with no order taken up (R21). -/
theorem State.stopKeying_control (s : State) (l : LineId) (m : Mode) :
    ((s.stopKeying l m).line l).control
      = { (s.line l).control with mode := m, keyupCount := 0, fillerRun := 0 } := by
  have work := (LineWork.stopWork s (s.currentIs_currentOf l)).control
  rw [State.stopKeying_eq, State.line_modLine_self, ← work]
  rfl

theorem State.stopKeying_held (s : State) (l : LineId) (m : Mode) :
    ((s.stopKeying l m).line l).held = (s.line l).held :=
  (congrArg Line.held (s.stopKeying_control l m) : (((s.stopKeying l m).line l).control).held = _)

theorem State.silenceCheck_held (s : State) (l : LineId) :
    ((s.silenceCheck l).line l).held = (s.line l).held := by
  have stop := s.stopKeying_held l .silent
  unfold State.silenceCheck
  split
  case h_5 => split <;> simp
  case h_6 | h_7 => rfl
  all_goals
    split
    · exact stop
    · rfl

theorem State.actOrder_held (s : State) (l : LineId) (order : LineOrder) :
    ((s.actOrder l order).1.line l).held = (s.line l).held := by
  have stop := s.stopKeying_held l .stopped
  cases order <;> simp only [State.actOrder] <;> split
  case h_6 | h_7 => rfl
  case h_1 | h_2 | h_3 | h_4 | h_5 => exact stop
  all_goals simp

/-- The order step clears the held order (R15). -/
theorem State.orderStep_held (s : State) (l : LineId) : ((s.orderStep l).1.line l).held = none := by
  unfold State.orderStep
  split
  · assumption
  · next h _ =>
    have kept := (s.modLine l fun x => { x with held := none }).actOrder_held l h.order
    rwa [State.line_modLine_self] at kept

theorem State.keyingCheck_held (s : State) (l : LineId) :
    ((s.keyingCheck l).line l).held = (s.line l).held := by
  unfold State.keyingCheck
  split
  · simp
  · rfl

/-- The mode step clears the held order (R15). -/
theorem State.modeStep_held (s : State) (l : LineId) : ((s.modeStep l).1.line l).held = none :=
  (State.keyingCheck_held _ l).trans (State.orderStep_held _ l)

/-- The order step answers for the order held: with its source, and BUSY to a PATTERN ON alone (R16 to R19). -/
theorem State.modeStep_answer (s : State) (l : LineId) {h : HeldOrder} (hh : (s.line l).held = some h) :
    ∃ result, (s.modeStep l).2 = some (h.source, result)
      ∧ (result = .accepted ∨ (result = .busy ∧ h.order = .patternOn)) := by
  have held : ((s.silenceCheck l).line l).held = some h := (s.silenceCheck_held l).trans hh
  have step : (s.modeStep l).2 = some (h.source,
      (((s.silenceCheck l).modLine l fun x => { x with held := none }).actOrder l h.order).2) := by
    simp only [State.modeStep, State.orderStep, held]
  refine ⟨_, step, ?_⟩
  cases ho : h.order with
  | patternOn =>
    simp only [State.actOrder]
    split
    · exact .inl rfl
    · exact .inr ⟨rfl, trivial⟩
  | stop => exact .inl rfl
  | start => exact .inl rfl
  | patternOff => exact .inl rfl

/-- What the stages up to the mode step leave of a card. -/
theorem State.frames_stepped (s : State) (l : LineId) :
    Frames l (s.currentOf l) (s.modLine l fun x => { x with outcome := none }) (s.stepped l) := by
  have work := s.lineWork_worked l
  rw [State.stepped_eq]
  refine work.toFrames.trans (.modeStep _ (work.current ?_))
  simpa [State.currentIs] using s.currentIs_currentOf l

/-- What the choice leaves of the mail of its line: the outcome is none, the rest as before the boundary. -/
theorem State.chosen_mail (s : State) (l : LineId) :
    ((s.chosen l).1.line l).cycle = (s.line l).cycle ∧ ((s.chosen l).1.line l).outcome = none
      ∧ ((s.chosen l).1.line l).silenceAnswer = (s.line l).silenceAnswer := by
  have mail := ((s.stepped l).choice_frame l).1.trans (s.frames_stepped l).mail
  rw [State.line_modLine_self, Line.mail_eq_iff] at mail
  rw [State.chosen_eq]
  exact mail

/-- A boundary as its line sees it: the line after the choice, its silence answer taken up, and its record
handed with the next tag (R1, R3). -/
theorem State.boundary_line (s : State) (l : LineId) :
    (s.boundary l).line l = ((s.chosen l).1.line l).handed (s.line l).nextTag (s.chosen l).2 := by
  have tag : ((s.chosen l).1.line l).nextTag = (s.line l).nextTag := by
    rw [Line.nextTag, Line.nextTag, (s.chosen_mail l).1]
  rw [State.boundary_eq, State.finish_line, tag]

theorem State.boundary_line_ne (s : State) {l k : LineId} (h : k ≠ l) :
    (s.boundary l).line k = (s.stepped l).line k := by
  rw [State.boundary_eq, State.finish_line_ne _ h, State.chosen_eq]
  exact ((s.stepped l).choice_frame l).2.2.1 k h

/-- The queue as the reports of a boundary are handed is the one before the boundary. -/
theorem State.chosen_queue (s : State) (l : LineId) : (s.chosen l).1.queue = s.queue := by
  rw [State.chosen_eq]
  exact ((s.stepped l).choice_frame l).2.2.2.trans (s.frames_stepped l).queue

end Sys2Proof.Machine

namespace Sys2Proof.Machine

variable {l : LineId} {s t : State} {cur : Option Slot}

/-! ## What a boundary hands -/

/-- The choice by the mode that results from the mode step (R2, stage 4; R3). -/
theorem State.choice_of_mode (s : State) (l : LineId) :
    ((s.line l).mode = .disabled ∨ (s.line l).mode = .stopped ∨ (s.line l).mode = .silent →
        s.choice l = (s, .unkeyed))
      ∧ ((s.line l).mode = .pattern → s.choice l = (s, .pattern))
      ∧ ((s.line l).mode = .keying →
        s.choice l = (s.modLine l fun x => { x with keyupCount := x.keyupCount + 1 }, .keyup))
      ∧ ((s.line l).mode = .rest → s.choice l = s.restCheck l)
      ∧ ((s.line l).mode = .active → s.choice l = s.chooseCycle l) := by
  unfold State.choice
  cases (s.line l).mode <;> simp

/-- The rest check of a line with content outside the start interval (R10). -/
theorem State.restCheck_content (h : s.startInterval = false) (hc : s.hasContent l = true) :
    s.restCheck l = (s.modLine l fun x => { x with mode := .keying, keyupCount := 1, fillerRun := 0 }, .keyup) := by
  simp [State.restCheck, h, hc]

/-- The rest check of a line without content, or in the start interval (R10, R7). -/
theorem State.restCheck_rest (h : s.startInterval = true ∨ s.hasContent l = false) :
    s.restCheck l = (s, .unkeyed) := by
  rcases h with h | h <;> simp [State.restCheck, h]

/-- An ACTIVE line hands no KEYUP, hands a circuit's answered cycle with a circuit, and stays ACTIVE or rests. -/
theorem State.chooseCycle_spec (s : State) (l : LineId) (h : (s.line l).mode = .active) :
    (s.chooseCycle l).2 ≠ .keyup
      ∧ ((s.chooseCycle l).2.carriesOffset = true → ((s.chooseCycle l).1.line l).circuit ≠ none)
      ∧ ((((s.chooseCycle l).1.line l).mode = .active ∧ ((s.chooseCycle l).1.line l).keyupCount
            = (s.line l).keyupCount)
          ∨ (8 ≤ (s.line l).fillerRun ∧ ((s.chooseCycle l).1.line l).mode = .rest))
      ∧ ((s.chooseCycle l).2 ≠ .filler → ((s.chooseCycle l).1.line l).fillerRun = 0) := by
  obtain ⟨p, served, cycle, chosen⟩ := s.chooseCycle_served l
  have line : ∃ n, (s.chooseCycle l).1.line l = { p.1.line l with fillerRun := n }
      ∧ (p.2 ≠ .filler → n = 0) := by
    rw [chosen]
    split
    · next e => exact ⟨_, rfl, fun ne => absurd e ne⟩
    · exact ⟨0, State.line_modLine_self .., fun _ => rfl⟩
  obtain ⟨n, line, zero⟩ := line
  rw [cycle, line]
  refine ⟨served.unkeyup, served.circuit, ?_, zero⟩
  rcases served.control with e | ⟨-, -, e⟩ | ⟨-, run, e⟩ <;>
    simp only [Line.control, Line.mk.injEq] at e
  · exact .inl ⟨e.1.trans h, e.2.2.2.1⟩
  · exact .inl ⟨e.1.trans h, e.2.2.2.1⟩
  · exact .inr ⟨run, e.1⟩

/-- A circuit's answered cycle is handed by a line with a circuit (R3). -/
theorem State.choice_circuit (s : State) (l : LineId) (h : (s.choice l).2.carriesOffset = true) :
    ((s.choice l).1.line l).circuit ≠ none := by
  obtain ⟨unkeyed, pattern, keying, rest, active⟩ := s.choice_of_mode l
  cases hm : (s.line l).mode with
  | disabled => rw [unkeyed (.inl hm)] at h; cases h
  | stopped => rw [unkeyed (.inr (.inl hm))] at h; cases h
  | silent => rw [unkeyed (.inr (.inr hm))] at h; cases h
  | pattern => rw [pattern hm] at h; cases h
  | keying => rw [keying hm] at h; cases h
  | rest =>
    rw [rest hm, State.restCheck] at h
    split at h <;> cases h
  | active =>
    rw [active hm] at h ⊢
    exact (s.chooseCycle_spec l hm).2.1 h

/-- The window-offset of a cycle that expects no answer is 0 (R3). -/
theorem Line.offsetFor_of_unanswered (x : Line) {c : Cycle} (h : c.expectsAnswer = false) :
    x.offsetFor c = 0 := by
  cases c <;> simp_all [Line.offsetFor, Cycle.expectsAnswer]

/-- The tag after a record's, and 0 at the first boundary (R1). -/
theorem Line.nextTag_val (x : Line) : x.nextTag.val = match x.cycle with
    | none => 0
    | some old => (old.tag.val + 1) % 8 := by
  unfold Line.nextTag
  cases x.cycle with
  | none => rfl
  | some old => exact Fin.val_add old.tag 1

/-- A state is another with all its fields but the fixed ones replaced, where the fixed ones agree. -/
theorem State.eq_of_fixed (h : t.fixed = s.fixed) :
    t = { s with records := t.records, freePages := t.freePages, reports := t.reports, queue := t.queue
                 counters := t.counters, lines := t.lines } := by
  obtain ⟨⟨h1, h2, h3, h4, h5, h6, h7⟩, h8, h9, h10, h11, h12, h13, h14⟩ := State.fixed_fields h
  cases s; cases t
  simp_all

/-- The record a boundary hands (R1, R3). -/
def State.recordHanded (s : State) (l : LineId) : CycleRecord :=
  { tag := (s.line l).nextTag, windowOffset := ((s.chosen l).1.line l).offsetFor (s.chosen l).2
    cycle := (s.chosen l).2 }

theorem State.boundary_cycle (s : State) (l : LineId) :
    ((s.boundary l).line l).cycle = some (s.recordHanded l) := by
  rw [State.boundary_line, Line.handed_cycle, State.recordHanded]

theorem State.boundary_mode (s : State) (l : LineId) :
    ((s.boundary l).line l).mode = ((s.chosen l).1.line l).mode := by
  rw [State.boundary_line, Line.handed_mode]

theorem State.boundary_held (s : State) (l : LineId) : ((s.boundary l).line l).held = none := by
  rw [State.boundary_line, Line.handed_held, State.chosen_eq, ((s.stepped l).choice_frame l).2.1,
    State.stepped_eq]
  exact (s.worked l).modeStep_held l

/-- The mode, the counts and the held order of a line stand until the mode step (R2). -/
theorem State.worked_kept (s : State) (l : LineId) :
    ((s.worked l).line l).mode = (s.line l).mode ∧ ((s.worked l).line l).keyupCount = (s.line l).keyupCount
      ∧ ((s.worked l).line l).fillerRun = (s.line l).fillerRun
      ∧ ((s.worked l).line l).held = (s.line l).held := by
  have h := (s.lineWork_worked l).control
  rw [State.line_modLine_self, Line.control_eq_iff] at h
  obtain ⟨mode, -, -, keyups, fillers, held, -⟩ := h
  exact ⟨mode, keyups, fillers, held⟩

/-- The mode a boundary's LINESTATE carries: the line's, or ACTIVE where the line rests after its 8th FILLER
(R20, log 9). -/
theorem State.answeredMode_boundary (s : State) (l : LineId) :
    answeredMode l (s.stepped l) (s.chosen l).1 = ((s.boundary l).line l).mode
      ∨ (answeredMode l (s.stepped l) (s.chosen l).1 = .active
          ∧ ((s.boundary l).line l).mode = .rest) := by
  rw [State.boundary_mode, answeredMode]
  split
  · next h =>
    rw [State.chosen_eq, ((s.stepped l).choice_of_mode l).2.2.2.2 h]
    rcases ((s.stepped l).chooseCycle_spec l h).2.2.1 with ⟨e, -⟩ | ⟨-, e⟩
    · exact .inl e.symm
    · exact .inr ⟨rfl, e⟩
  · exact .inl rfl

/-- A silence answer that waited is queued at the boundary (R20). -/
theorem State.boundary_silenceAnswer (s : State) {d : Station} (h : (s.line l).silenceAnswer = some d)
    (room : s.queue.length < 24) :
    (⟨⟨d, .lineState l (answeredMode l (s.stepped l) (s.chosen l).1) .accepted⟩, false⟩ : Queued)
      ∈ (s.boundary l).queue := by
  have short : (s.chosen l).1.handReports.queue.length ≤ 23 :=
    State.handReports_room _ (by rw [State.chosen_queue]; omega) (by decide)
  rw [State.boundary_eq, State.finish_queue]
  exact State.mem_answer_silence (by
    rw [State.line_congr (State.handReports_lines _), (s.chosen_mail l).2.2]; exact h) (Nat.lt_succ_of_le short)

/-- The answer to a held order is queued at the boundary, behind the silence answer (R20). -/
theorem State.boundary_orderAnswer (s : State) {d : Station} {r : OrderResult}
    (h : ((s.worked l).modeStep l).2 = some (d, r)) (room : s.queue.length < 23) :
    (⟨⟨d, .lineState l (answeredMode l (s.stepped l) (s.chosen l).1) r⟩, false⟩ : Queued)
        ∈ (s.boundary l).queue
      ∧ ∀ d', (s.line l).silenceAnswer = some d' →
        [(⟨⟨d', .lineState l (answeredMode l (s.stepped l) (s.chosen l).1) .accepted⟩, false⟩
          : Queued),
          ⟨⟨d, .lineState l (answeredMode l (s.stepped l) (s.chosen l).1) r⟩, false⟩].Sublist
          (s.boundary l).queue := by
  have short : (s.chosen l).1.handReports.queue.length ≤ 22 :=
    State.handReports_room _ (by rw [State.chosen_queue]; omega) (by decide)
  have answers := State.mem_answer_order (s := (s.chosen l).1.handReports) (l := l)
    (m := answeredMode l (s.stepped l) (s.chosen l).1) (dest := d) (r := r)
    (Nat.lt_succ_of_le (Nat.succ_le_succ short))
  rw [State.boundary_eq, State.finish_queue, h]
  exact ⟨answers.1, fun d' hd => answers.2 d' (by
    rw [State.line_congr (State.handReports_lines _), (s.chosen_mail l).2.2]; exact hd)⟩

/-- An answered cycle of a circuit carries an offset of the circuit that the line then has (R3). -/
theorem State.recordHanded_offset (s : State) (l : LineId) (f : Circuit → Nat)
    (h : (s.chosen l).2.carriesOffset = true)
    (ho : ((s.chosen l).1.line l).offsetFor (s.chosen l).2
      = (((s.chosen l).1.line l).circuit.map f).getD 0) :
    ∃ c, ((s.boundary l).line l).circuit = some c ∧ (s.recordHanded l).windowOffset = f c := by
  have some : ((s.chosen l).1.line l).circuit ≠ none := by
    rw [State.chosen_eq] at h ⊢
    exact (s.stepped l).choice_circuit l h
  obtain ⟨c, e⟩ := Option.ne_none_iff_exists'.mp some
  refine ⟨c, ?_, ?_⟩
  · rw [State.boundary_line, Line.handed_circuit, e]
  · rw [State.recordHanded, ho, e]; rfl

/-- Settles O9, stage by stage: the record from the line as its choice leaves it, and the answers from the queue
as its reports leave it. -/
theorem boundaryHandsRecord : Obligations.BoundaryHandsRecord := by
  unfold Obligations.BoundaryHandsRecord
  refine ⟨fun l s hp => ?_, fun l s hp => ?_⟩
  · refine ⟨_, _, exec_boundary s l hp, s.boundary_cycle l, (s.line l).nextTag_val,
      Line.offsetFor_of_unanswered _, fun ship h => ?_, fun h => ?_, fun h => ?_, ?_,
      State.eq_of_fixed (s.fixed_boundary l)⟩
    · have e : (s.chosen l).2 = .call ship := h
      simp only [State.recordHanded, e, Line.offsetFor]
    · have e : (s.chosen l).2 = .align := h
      exact s.recordHanded_offset l _ (by rw [e]; rfl) (by rw [e]; rfl)
    · have e : (s.chosen l).2 = (s.recordHanded l).cycle := rfl
      rcases h with h | ⟨chars, h⟩ | h | h | h <;>
        exact s.recordHanded_offset l _ (by rw [e, h]; rfl) (by rw [e, h]; rfl)
    · rw [State.boundary_line, Line.handed_outcome]
      exact (s.chosen_mail l).2.1
  · dsimp only
    rw [← State.stepped_eq, ← State.chosen_eq]
    refine ⟨_, exec_boundary s l hp, s.boundary_eq l, s.answeredMode_boundary l, ?_, s.boundary_held l, ?_,
      fun d hd room => s.boundary_silenceAnswer hd room, fun h hh room => ?_⟩
    · rintro m rfl
      obtain ⟨unkeyed, pattern, keying, rest, active⟩ := (s.stepped l).choice_of_mode l
      rw [State.chosen_eq]
      refine ⟨unkeyed, pattern, fun h => congrArg Prod.snd (keying h), fun h => ?_, active⟩
      rw [rest h, State.restCheck]
      split
      · exact .inl rfl
      · exact .inr rfl
    · rw [State.boundary_line, Line.handed_silenceAnswer]
    · have held := (s.worked_kept l).2.2.2.trans hh
      obtain ⟨result, order, kind⟩ := (s.worked l).modeStep_answer l held
      exact ⟨result, kind, s.boundary_orderAnswer order room⟩

end Sys2Proof.Machine

namespace Sys2Proof.Machine

variable {l : LineId} {s t : State} {cur : Option Slot}

/-! ## One line alone, and the line that is DISABLED -/

/-- The laws of R25 and R133: a circuit's current message names the circuit's line. -/
theorem State.atHome_of_messagesPlaced (h : s.messagesPlaced) (l : LineId) : s.atHome l (s.currentOf l) := by
  obtain ⟨entries, currents, -⟩ := h
  intro i r m hi hr hm
  obtain ⟨c, hc, hci⟩ := Option.bind_eq_some_iff.mp hi
  obtain ⟨-, -, e, he, -, hmem⟩ := currents l c i hc hci
  obtain ⟨r', x, hr', hb, hx, -⟩ := (entries l e he).2 i hmem
  obtain rfl : r = r' := Option.some.inj (hr.symm.trans hr')
  have home : r.home = some l := by simp [Record.home, Record.telex?, hb, hx]
  exact Option.some.inj (hm.symm.trans home)

/-- Settles O10: the stages up to the mode step frame every other line where the current message is at home, and
the choice and the end of a boundary touch none. -/
theorem boundaryWorksOnOneLine : Obligations.BoundaryWorksOnOneLine := by
  unfold Obligations.BoundaryWorksOnOneLine
  intro l m s hm placed
  have home : (s.modLine l fun x => { x with outcome := none }).atHome l (s.currentOf l) :=
    State.atHome_of_messagesPlaced placed l
  show ∃ t, execBoundary l s = .next t ∧ _
  refine ⟨_, rfl, ?_⟩
  split
  · rw [State.boundary_line_ne s hm, (s.frames_stepped l).others home m hm, State.line_modLine_ne _ _ hm]
  · rfl

/-- A line with its held order taken up (R15). -/
def State.dropOrder (s : State) (l : LineId) : State := s.modLine l fun x => { x with held := none }

/-- A change of a line that changes nothing there. -/
theorem State.modLine_of_eq {f : Line → Line} (h : f (s.line l) = s.line l) : s.modLine l f = s := by
  rw [State.modLine, h, State.setLine, State.line]
  simp

/-- Without an order, or with one that changes nothing but its answer, the mode step is the silence check, the
order cleared, and the keying check. -/
theorem State.modeStep_idle
    (h : ∀ o, (s.line l).held = some o →
      (((s.silenceCheck l).dropOrder l).actOrder l o.order).1 = (s.silenceCheck l).dropOrder l) :
    (s.modeStep l).1 = ((s.silenceCheck l).dropOrder l).keyingCheck l := by
  have held := s.silenceCheck_held l
  simp only [State.modeStep, State.orderStep]
  cases ho : (s.line l).held with
  | none =>
    rw [ho] at held
    have same : (s.silenceCheck l).dropOrder l = s.silenceCheck l :=
      State.modLine_of_eq (by rw [← held])
    rw [held, same]
  | some o =>
    rw [ho] at held
    rw [held]
    exact congrArg (State.keyingCheck · l) (h o ho)

theorem State.dropOrder_line (s : State) (l : LineId) :
    (s.dropOrder l).line l = { s.line l with held := none } := State.line_modLine_self ..

/-- A held order taken up changes nothing else of any line. -/
theorem State.dropOrder_line_held (s : State) (l k : LineId) :
    ∃ h, (s.dropOrder l).line k = { s.line k with held := h } := by
  by_cases hk : k = l
  · subst hk; exact ⟨none, s.dropOrder_line k⟩
  · exact ⟨(s.line k).held, State.line_modLine_ne _ _ hk⟩

section dropOrder

variable (s : State) (l k : LineId)

@[simp] theorem State.dropOrder_mode : ((s.dropOrder l).line k).mode = (s.line k).mode := by
  obtain ⟨h, e⟩ := s.dropOrder_line_held l k
  rw [e]

@[simp] theorem State.dropOrder_cycle : ((s.dropOrder l).line k).cycle = (s.line k).cycle := by
  obtain ⟨h, e⟩ := s.dropOrder_line_held l k
  rw [e]

@[simp] theorem State.dropOrder_keyupCount : ((s.dropOrder l).line k).keyupCount = (s.line k).keyupCount := by
  obtain ⟨h, e⟩ := s.dropOrder_line_held l k
  rw [e]

@[simp] theorem State.dropOrder_circuit : ((s.dropOrder l).line k).circuit = (s.line k).circuit := by
  obtain ⟨h, e⟩ := s.dropOrder_line_held l k
  rw [e]

@[simp] theorem State.dropOrder_callList : ((s.dropOrder l).line k).callList = (s.line k).callList := by
  obtain ⟨h, e⟩ := s.dropOrder_line_held l k
  rw [e]

@[simp] theorem State.dropOrder_windowQueue : ((s.dropOrder l).line k).windowQueue = (s.line k).windowQueue := by
  obtain ⟨h, e⟩ := s.dropOrder_line_held l k
  rw [e]

@[simp] theorem State.dropOrder_window : ((s.dropOrder l).line k).window = (s.line k).window := by
  obtain ⟨h, e⟩ := s.dropOrder_line_held l k
  rw [e]

end dropOrder

/-- An order changes nothing on a DISABLED line (R8). -/
theorem State.actOrder_disabled (h : (s.line l).mode = .disabled) (order : LineOrder) :
    (s.actOrder l order).1 = s := by
  cases order <;> simp [State.actOrder, State.patternAllowed, h]

/-- The mode step of a DISABLED line clears its order (R8). -/
theorem State.modeStep_disabled (h : (s.line l).mode = .disabled) : (s.modeStep l).1 = s.dropOrder l := by
  have silent : s.silenceCheck l = s := by simp [State.silenceCheck, h]
  have mode : ((s.dropOrder l).line l).mode = .disabled := (s.dropOrder_mode l l).trans h
  rw [State.modeStep_idle, silent]
  · simp [State.keyingCheck, mode]
  · rw [silent]
    exact fun o _ => State.actOrder_disabled mode o.order

/-- A line without a circuit has none after its settling and per-boundary work (R6, R24). -/
theorem State.worked_circuit (h : (s.line l).circuit = none) : ((s.worked l).line l).circuit = none := by
  have base : ((s.modLine l fun x => { x with outcome := none }).line l).circuit = none := by
    rw [State.line_modLine_self]; exact h
  have settled : ((s.settled l).line l).circuit = none := by
    unfold State.settled State.settle
    dsimp only
    split
    · exact base
    · split
      · next i hi => rw [(PartWork.completeSending _ (State.bulletinOnAir_spec hi).1).circuit, base]
      · exact base
    · rw [(PartWork.endNotice _).circuit, base]
    · rw [base]
      exact base
  have held : (((s.settled l).decreaseHolds l (s.line l).callList).line l).circuit = none := by
    rw [State.decreaseHolds, State.line_modLine_self]; exact settled
  have silent : ∀ e o, ((s.settled l).decreaseHolds l (s.line l).callList).silenceStep l e o
      = (s.settled l).decreaseHolds l (s.line l).callList := fun e o => by
    rw [State.silenceStep, held]
  have emptied : ((s.settled l).decreaseHolds l (s.line l).callList).emptiedCheck l
      = (s.settled l).decreaseHolds l (s.line l).callList := by
    rw [State.emptiedCheck, held]
  rw [State.worked, State.perBoundary, silent, emptied,
    (((PartWork.removeAllWithdrawn _).trans (.deferralStep _)).trans (.openPending _)).circuit, held]

/-- Settles O12: no stage gives a DISABLED line a mode, a circuit, an entry or a cycle. -/
theorem disabledLineHandsUnkeyed : Obligations.DisabledLineHandsUnkeyed := by
  unfold Obligations.DisabledLineHandsUnkeyed
  intro l s hp hm
  have mode : ((s.worked l).line l).mode = .disabled := (s.worked_kept l).1.trans hm
  have stepped : s.stepped l = (s.worked l).dropOrder l := by
    rw [State.stepped_eq, State.modeStep_disabled mode]
  have still : ((s.stepped l).line l).mode = .disabled := by rw [stepped, State.dropOrder_mode, mode]
  have chosen : s.chosen l = (s.stepped l, .unkeyed) := by
    rw [State.chosen_eq]
    exact ((s.stepped l).choice_of_mode l).1 (.inl still)
  refine ⟨_, _, exec_boundary s l hp, ?_, s.boundary_cycle l, ?_, s.boundary_held l, fun hc => ?_, fun hl => ?_⟩
  · rw [State.boundary_mode, chosen]; exact still
  · rw [State.recordHanded, chosen]
  · rw [State.boundary_line, Line.handed_circuit, chosen, stepped, State.dropOrder_circuit,
      State.worked_circuit hc]
  · rw [State.boundary_line, Line.handed_callList, chosen]
    exact (s.frames_stepped l).empty (by rw [State.line_modLine_self]; exact hl)

/-! ## Outcome records and orders -/

/-- Settles O15: by the branches of `Line.takeOutcome`, and the kinds by the value of bits 5–3. -/
theorem outcomeRecordKeptOnce : Obligations.OutcomeRecordKeptOnce := by
  unfold Obligations.OutcomeRecordKeptOnce
  refine ⟨fun l head d1 d2 d3 d4 d5 s => ⟨_, rfl, rfl, fun m hm => State.line_modLine_ne _ _ hm, ?_, ?_⟩, ?_⟩
  · rintro ⟨r, hc, htag, hans, hout⟩
    have tag : r.tag = readTag head := Fin.ext htag
    rw [State.line_modLine_self]
    simp [Line.takeOutcome, hc, tag, hans, hout]
  · intro h
    rw [State.line_modLine_self, Line.takeOutcome]
    cases hc : (s.line l).cycle with
    | none => rfl
    | some r =>
      refine if_neg ?_
      rintro ⟨htag, hans, hout⟩
      rcases h r hc with h | h | h
      · exact h (congrArg Fin.val htag)
      · rw [hans] at h; cases h
      · exact h hout
  · intro head digits
    dsimp only
    refine ⟨?_, ?_, ?_, ?_, ?_, ?_, ?_, ?_⟩ <;> intro h <;> simp only [readOutcome, h]

/-- A silence order's answers and set on a card whose silenced set alone has changed (R13). -/
theorem State.leaveAnswers_spec (s : State) (bands mask : BandMask) (source : Station) (l : LineId) :
    ((s.line l).mode ≠ .disabled ∧ mask.getLsbD (s.lineConfig l).band.val = true →
        (({ s with silenced := bands } : State).leaveAnswers mask source).line l
          = { s.line l with silenceAnswer := some source })
      ∧ ((s.line l).mode = .disabled ∨ mask.getLsbD (s.lineConfig l).band.val = false →
        (({ s with silenced := bands } : State).leaveAnswers mask source).line l = s.line l) := by
  rw [State.leaveAnswers, State.line_mapLines]
  refine ⟨fun h => if_pos h, fun h => if_neg ?_⟩
  rintro ⟨hm, hb⟩
  rcases h with h | h
  · exact hm h
  · exact absurd (hb.symm.trans h) nofun

/-- Settles O37: the set bit by bit, and the answers line by line. -/
theorem silenceOrdersChangeSet : Obligations.SilenceOrdersChangeSet := by
  unfold Obligations.SilenceOrdersChangeSet
  refine fun h mask s => ⟨fun taken => ?_, fun taken => ?_⟩
  · refine ⟨_, congrArg Host.Outcome.next (State.receive_taken taken _), s.leaveAnswers_spec _ mask h.source,
      fun b _ => ?_, rfl⟩
    exact BitVec.getLsbD_or
  · refine ⟨_, congrArg Host.Outcome.next (State.receive_taken taken _), s.leaveAnswers_spec _ mask h.source,
      fun b hb => ?_, rfl⟩
    show (s.silenced &&& ~~~mask).getLsbD b = _
    simp [hb]

/-- Settles O38: by the mode of the line and the order it holds. -/
theorem lineOrderHeldOrAnswered : Obligations.LineOrderHeldOrAnswered := by
  unfold Obligations.LineOrderHeldOrAnswered
  intro h l s c k order kinds taken
  have run : exec c s = .next (s.takeOrder l order h.source) := by
    rcases kinds with e | e | e | e <;> cases e <;>
      exact congrArg Host.Outcome.next (State.receive_taken taken _)
  rw [run]
  refine ⟨fun hm room => ?_, fun hm hh => ?_, fun hm hh room => ?_⟩
  · rw [State.takeOrder, if_pos hm, State.offerLineState_room room]
  · rw [State.takeOrder, if_neg hm, hh]
    exact ⟨_, rfl, State.line_modLine_self .., fun m ne => State.line_modLine_ne _ _ ne, rfl⟩
  · obtain ⟨o, ho⟩ := Option.ne_none_iff_exists'.mp hh
    rw [State.takeOrder, if_neg hm, ho]
    exact congrArg Host.Outcome.next (State.offerLineState_room room)

end Sys2Proof.Machine

namespace Sys2Proof.Machine

variable {l : LineId} {s t : State} {cur : Option Slot}

/-! ## Content, and the line without any -/

/-- Two cards whose line has the same traffic: its circuit, entries, queues and window, and the records. -/
structure SameTraffic (l : LineId) (s t : State) : Prop where
  records : t.records = s.records
  circuit : (t.line l).circuit = (s.line l).circuit
  calls : (t.line l).callList = (s.line l).callList
  cutIns : (t.line l).cutInQueue = (s.line l).cutInQueue
  windows : (t.line l).windowQueue = (s.line l).windowQueue
  frees : (t.line l).freeQueue = (s.line l).freeQueue
  window : (t.line l).window = (s.line l).window

/-- A change of the line beside its traffic. -/
theorem SameTraffic.modLine (s : State) {f : Line → Line} (circuit : ∀ x, (f x).circuit = x.circuit)
    (calls : ∀ x, (f x).callList = x.callList) (cutIns : ∀ x, (f x).cutInQueue = x.cutInQueue)
    (windows : ∀ x, (f x).windowQueue = x.windowQueue) (frees : ∀ x, (f x).freeQueue = x.freeQueue)
    (window : ∀ x, (f x).window = x.window) : SameTraffic l s (s.modLine l f) := by
  constructor
  · rfl
  all_goals rw [State.line_modLine_self]
  · exact circuit _
  · exact calls _
  · exact cutIns _
  · exact windows _
  · exact frees _
  · exact window _

theorem SameTraffic.dropOrder (s : State) (l : LineId) : SameTraffic l s (s.dropOrder l) :=
  .modLine s (fun _ => rfl) (fun _ => rfl) (fun _ => rfl) (fun _ => rfl) (fun _ => rfl) fun _ => rfl

theorem SameTraffic.trans {u : State} (h1 : SameTraffic l s t) (h2 : SameTraffic l t u) : SameTraffic l s u :=
  ⟨h2.records.trans h1.records, h2.circuit.trans h1.circuit, h2.calls.trans h1.calls,
    h2.cutIns.trans h1.cutIns, h2.windows.trans h1.windows, h2.frees.trans h1.frees,
    h2.window.trans h1.window⟩

theorem State.sendable_congr (h : t.records = s.records) (l : LineId) : t.sendable l = s.sendable l := by
  funext i
  simp only [State.sendable, State.isReady, State.part?, State.record_congr h]

theorem State.partOnAir_congr (h : t.records = s.records) (l : LineId) : t.partOnAir l = s.partOnAir l := by
  funext i
  simp only [State.partOnAir, State.part?, State.record_congr h]

theorem SameTraffic.nextCutIn (h : SameTraffic l s t) : t.nextCutIn l = s.nextCutIn l := by
  rw [State.nextCutIn, State.nextCutIn, h.cutIns, State.sendable_congr h.records]

theorem SameTraffic.nextFree (h : SameTraffic l s t) : t.nextFree l = s.nextFree l := by
  rw [State.nextFree, State.nextFree, h.frees, State.sendable_congr h.records]

theorem SameTraffic.callable (h : SameTraffic l s t) : t.callable? l = s.callable? l := by
  have callable : t.isCallable = s.isCallable := by
    have ready : t.isReady = s.isReady := by
      funext i
      rw [State.isReady, State.isReady, State.record_congr h.records]
    funext e
    rw [State.isCallable, State.isCallable, State.oldestReady, State.oldestReady, ready]
  rw [State.callable?, State.callable?, h.circuit, h.calls, callable]

theorem SameTraffic.cutInOnAir (h : SameTraffic l s t) : t.cutInOnAir l = s.cutInOnAir l := by
  rw [State.cutInOnAir, State.cutInOnAir, h.cutIns, State.partOnAir_congr h.records]

theorem SameTraffic.unitOnAir (h : SameTraffic l s t) : t.unitOnAir l = s.unitOnAir l := by
  rw [State.unitOnAir, State.unitOnAir, h.windows, h.frees, State.partOnAir_congr h.records]

theorem SameTraffic.bulletinOnAir (h : SameTraffic l s t) : t.bulletinOnAir l = s.bulletinOnAir l := by
  rw [State.bulletinOnAir, State.bulletinOnAir, h.cutInOnAir, h.unitOnAir]

theorem SameTraffic.hasContent (h : SameTraffic l s t) : t.hasContent l = s.hasContent l := by
  rw [State.hasContent, State.hasContent, h.circuit, h.window, h.nextCutIn, h.nextFree, h.callable]

/-- A slot may be sent where its record is READY and its part on the line QUEUED (R72, R73). -/
theorem State.sendable_iff (s : State) (l : LineId) (i : Slot) :
    s.sendable l i = true ↔
      (∃ r, s.record i = some r ∧ r.state = .ready) ∧ ∃ p, s.part? i l = some p ∧ p.state = .queued := by
  simp [State.sendable, State.isReady, Option.any_eq_true]

/-- A line has content where one of R106 holds. -/
theorem State.hasContent_iff (s : State) (l : LineId) :
    s.hasContent l = true ↔ (s.line l).circuit ≠ none ∨ (s.line l).window.state ≠ .closed
      ∨ (∃ i ∈ (s.line l).cutInQueue ++ (s.line l).freeQueue,
          (∃ r, s.record i = some r ∧ r.state = .ready) ∧ ∃ p, s.part? i l = some p ∧ p.state = .queued)
      ∨ ∃ e ∈ (s.line l).callList, e.retryHold = 0
        ∧ ∃ i ∈ e.messages, ∃ r, s.record i = some r ∧ r.state = .ready := by
  have parts : ((s.nextCutIn l).isSome = true ∨ (s.nextFree l).isSome = true) ↔
      ∃ i ∈ (s.line l).cutInQueue ++ (s.line l).freeQueue,
        (∃ r, s.record i = some r ∧ r.state = .ready) ∧ ∃ p, s.part? i l = some p ∧ p.state = .queued := by
    simp only [State.nextCutIn, State.nextFree, List.find?_isSome, State.sendable_iff, List.mem_append,
      or_and_right, exists_or]
  have calls : ∀ e : Entry, s.isCallable e = true ↔
      e.retryHold = 0 ∧ ∃ i ∈ e.messages, ∃ r, s.record i = some r ∧ r.state = .ready := by
    intro e
    simp [State.isCallable, State.oldestReady, State.isReady, Option.any_eq_true]
  have call : (s.line l).circuit = none → ((s.callable? l).isSome = true ↔
      ∃ e ∈ (s.line l).callList, e.retryHold = 0
        ∧ ∃ i ∈ e.messages, ∃ r, s.record i = some r ∧ r.state = .ready) := by
    intro hc
    rw [State.callable?, hc]
    simp only [List.find?_isSome, calls]
  cases hc : (s.line l).circuit with
  | some c => simp [State.hasContent, hc]
  | none =>
    have call := call hc
    simp only [State.hasContent, hc, Option.isSome_none, Bool.false_or, Bool.or_eq_true,
      decide_eq_true_eq, call, ne_eq, not_true_eq_false, false_or]
    rw [or_assoc, or_assoc, ← or_assoc (a := (s.nextCutIn l).isSome = true), parts]

/-- The choice of a line with nothing to send is source 10 (R105, R120). -/
theorem State.serveOperation_idle (content : s.hasContent l = false) (air : s.bulletinOnAir l = none)
    (notice : (s.line l).window.noticeStep = 0) : s.serveOperation l = s.serveFiller l := by
  simp only [State.hasContent, Bool.or_eq_false_iff, Option.isSome_eq_false_iff, Option.isNone_iff_eq_none,
    decide_eq_false_iff_not, ne_eq, Decidable.not_not] at content
  obtain ⟨⟨⟨⟨circuit, window⟩, cutIn⟩, free⟩, call⟩ := content
  have cutInAir : s.cutInOnAir l = none := by
    cases h : s.cutInOnAir l with
    | none => rfl
    | some i => rw [State.bulletinOnAir, h] at air; cases air
  have unitAir : s.unitOnAir l = none := by rwa [State.bulletinOnAir, cutInAir] at air
  simp [State.serveOperation, State.serveKeep, State.serveCut, State.brokenEndDue, State.serveCutIn,
    State.serveUnit, State.serveWindow, State.serveTraffic, State.serveCall, State.serveFree, circuit, window,
    cutIn, free, call, air, cutInAir, unitAir, notice]

/-- The end tests change the arbiter alone (R114). -/
theorem State.endTests_eq (s : State) (l : LineId) : ∃ f, s.endTests l = s.modArbiter l f := by
  unfold State.endTests
  dsimp only
  exact iteInduction (motive := fun u => ∃ f, u = s.modArbiter l f) (fun _ => ⟨_, rfl⟩)
    fun _ => ⟨id, (State.modLine_of_eq rfl).symm⟩

theorem State.serveFiller_filler (h : (s.line l).fillerRun < 8) :
    s.serveFiller l = (s.modLine l fun x => { x with fillerRun := x.fillerRun + 1 }, .filler) := by
  simp [State.serveFiller, h]

theorem State.serveFiller_rest (h : (s.line l).fillerRun = 8) (hc : (s.line l).circuit = none) :
    s.serveFiller l = (s.modLine l fun x => { x with fillerRun := 0, mode := .rest }, .unkeyed) := by
  simp [State.serveFiller, h, hc]

/-- An ACTIVE line with nothing to send hands FILLER, and rests after the 8th (R12, R120). -/
theorem State.chooseCycle_idle (content : s.hasContent l = false) (air : s.bulletinOnAir l = none)
    (notice : (s.line l).window.noticeStep = 0) :
    ((s.line l).fillerRun < 8 → (s.chooseCycle l).2 = .filler
        ∧ ((s.chooseCycle l).1.line l).mode = (s.line l).mode
        ∧ ((s.chooseCycle l).1.line l).fillerRun = (s.line l).fillerRun + 1)
      ∧ ((s.line l).fillerRun = 8 → (s.chooseCycle l).2 = .unkeyed
        ∧ ((s.chooseCycle l).1.line l).mode = .rest ∧ ((s.chooseCycle l).1.line l).fillerRun = 0) := by
  obtain ⟨f, tests⟩ := s.endTests_eq l
  have same : SameTraffic l s (s.modArbiter l f) :=
    .modLine s (fun _ => rfl) (fun _ => rfl) (fun _ => rfl) (fun _ => rfl) (fun _ => rfl) fun _ => rfl
  have mode : ((s.modArbiter l f).line l).mode = (s.line l).mode := by
    rw [State.modArbiter, State.line_modLine_self]
  have run : ((s.modArbiter l f).line l).fillerRun = (s.line l).fillerRun := by
    rw [State.modArbiter, State.line_modLine_self]
  have source := State.serveOperation_idle (same.hasContent.trans content) (same.bulletinOnAir.trans air)
    (by rw [same.window]; exact notice)
  have circuit : (s.line l).circuit = none := by
    cases hc : (s.line l).circuit with
    | none => rfl
    | some c => simp [State.hasContent, hc] at content
  rw [State.chooseCycle, tests, source]
  refine ⟨fun short => ?_, fun eighth => ?_⟩
  · rw [State.serveFiller_filler (run ▸ short)]
    simp [mode, run]
  · rw [State.serveFiller_rest (run ▸ eighth) (same.circuit ▸ circuit)]
    simp

/-! ## The mode step without an order -/

theorem State.silencedLine_congr (h : t.fixed = s.fixed) (l : LineId) : t.silencedLine l = s.silencedLine l := by
  obtain ⟨⟨-, -, -, -, -, -, config⟩, silenced, -⟩ := State.fixed_fields h
  rw [State.silencedLine, State.silencedLine, silenced, State.lineConfig_congr config]

theorem State.startInterval_congr (h : t.fixed = s.fixed) : t.startInterval = s.startInterval :=
  (State.fixed_fields h).1.2.2.2.2.2.1

/-- The silence check of a line whose band is not silenced takes it out of SILENT (R14). -/
theorem State.silenceCheck_open (h : s.silencedLine l = false) :
    s.silenceCheck l = if (s.line l).mode = .silent then s.modLine l fun x => { x with mode := .rest } else s := by
  unfold State.silenceCheck
  cases (s.line l).mode <;> simp [h]

/-- A line without an order whose band is not silenced, out of SILENT: only the keying check acts on it. -/
theorem State.stepped_open (held : (s.line l).held = none) (silenced : s.silencedLine l = false)
    (mode : (s.line l).mode ≠ .silent) : s.stepped l = (s.worked l).keyingCheck l := by
  obtain ⟨wmode, -, -, wheld⟩ := s.worked_kept l
  have unsilenced : (s.worked l).silencedLine l = false :=
    (State.silencedLine_congr (s.fixed_worked l) l).trans silenced
  have stays : (s.worked l).silenceCheck l = s.worked l := by
    rw [State.silenceCheck_open unsilenced, if_neg]
    rwa [wmode]
  have none : ((s.worked l).line l).held = none := wheld.trans held
  rw [State.stepped_eq, State.modeStep, State.orderStep, stays, none]

theorem State.keyingCheck_other (h : (s.line l).mode ≠ .keying ∨ (s.line l).keyupCount < 2) :
    s.keyingCheck l = s := by
  rw [State.keyingCheck, if_neg]
  rintro ⟨mode, count⟩
  rcases h with h | h
  · exact h mode
  · omega

/-- Settles O7: the mode step leaves the line as it is but for the keying check, and the choice goes by the mode
and the content that the per-boundary work left. -/
theorem startIntervalHoldsRest : Obligations.StartIntervalHoldsRest := by
  unfold Obligations.StartIntervalHoldsRest
  refine ⟨fun s => ⟨rfl, fun l hp start mode held silenced => ?_⟩, fun l s hp held silenced => ?_⟩
  · have start' := State.startInterval_congr (s.fixed_worked l)
    have wmode := (s.worked_kept l).1
    have stepped := State.stepped_open held silenced (by simp [mode])
    generalize s.worked l = w at *
    rw [State.keyingCheck_other (.inl (by simp [wmode, mode]))] at stepped
    have chosen : s.chosen l = (w, .unkeyed) := by
      rw [State.chosen_eq, stepped, (w.choice_of_mode l).2.2.2.1 (wmode.trans mode),
        State.restCheck_rest (.inl (start'.trans start))]
    refine ⟨_, _, exec_boundary s l hp, ?_, s.boundary_cycle l, ?_⟩
    · rw [State.boundary_mode, chosen]; exact wmode.trans mode
    · rw [State.recordHanded, chosen]
  · have start := State.startInterval_congr (s.fixed_worked l)
    obtain ⟨mode, keyups, fillers, -⟩ := s.worked_kept l
    have stepped : ∀ m, (s.line l).mode = m → m ≠ .silent → s.stepped l = (s.worked l).keyingCheck l :=
      fun m h ne => State.stepped_open held silenced (h ▸ ne)
    dsimp only
    generalize s.worked l = w at *
    have content := w.hasContent_iff l
    have still : ∀ m, (s.line l).mode = m → m ≠ .silent → (m ≠ .keying ∨ (s.line l).keyupCount < 2) →
        s.stepped l = w := fun m h ne k => by
      rw [stepped m h ne, State.keyingCheck_other]
      rwa [mode, keyups, h]
    obtain ⟨-, -, keying, rest, active⟩ := w.choice_of_mode l
    refine ⟨_, _, exec_boundary s l hp, s.boundary_cycle l, ?_⟩
    rw [State.boundary_line, Line.handed_mode, Line.handed_keyupCount, Line.handed_fillerRun, State.recordHanded,
      State.chosen_eq]
    refine ⟨fun h hs hc => ?_, fun h hc => ?_, fun h hk => ?_, fun h hk hf => ?_, fun h hc hb hn => ?_,
      fun h hf => ?_⟩
    · rw [still .rest h nofun (.inl nofun), rest (mode.trans h),
        State.restCheck_content (start.trans hs) (content.mpr hc)]
      simp
    · rw [still .rest h nofun (.inl nofun), rest (mode.trans h),
        State.restCheck_rest (.inr (Bool.not_eq_true _ ▸ mt content.mp hc))]
      exact ⟨mode.trans h, rfl⟩
    · rw [still .keying h nofun (.inr (by omega)), keying (mode.trans h), State.line_modLine_self]
      exact ⟨mode.trans h, congrArg (· + 1) (keyups.trans hk), rfl⟩
    · rw [stepped .keying h nofun, State.keyingCheck, if_pos ⟨mode.trans h, by omega⟩]
      have keyed : ((w.modLine l fun x => { x with mode := .active, keyupCount := 0 }).line l)
          = { w.line l with mode := .active, keyupCount := 0 } := State.line_modLine_self ..
      generalize w.modLine l (fun x => { x with mode := .active, keyupCount := 0 }) = u at *
      have hm : (u.line l).mode = .active := by rw [keyed]
      rw [(u.choice_of_mode l).2.2.2.2 hm]
      obtain ⟨unkeyup, -, modes, -⟩ := u.chooseCycle_spec l hm
      rcases modes with ⟨hm', hk'⟩ | ⟨run, -⟩
      · exact ⟨hm', by rw [hk', keyed], unkeyup⟩
      · rw [keyed] at run
        exact absurd (fillers ▸ run : 8 ≤ (s.line l).fillerRun) (by omega)
    · have idle := State.chooseCycle_idle (Bool.not_eq_true _ ▸ mt content.mp hc) hb hn
      rw [still .active h nofun (.inl nofun), active (mode.trans h)]
      rw [fillers, mode] at idle
      refine ⟨fun run => ?_, fun run => ?_⟩
      · obtain ⟨cycle, hm, count⟩ := idle.1 run
        exact ⟨hm.trans h, count, cycle⟩
      · obtain ⟨cycle, hm, count⟩ := idle.2 run
        exact ⟨hm, count, cycle⟩
    · rw [still .active h nofun (.inl nofun), active (mode.trans h)] at hf ⊢
      exact (w.chooseCycle_spec l (mode.trans h)).2.2.2 hf

end Sys2Proof.Machine

namespace Sys2Proof.Machine

variable {l : LineId} {s t u : State} {cur : Option Slot}

/-! ## A silenced band at the boundary -/

theorem State.stopKeying_mode (s : State) (l : LineId) (m : Mode) : ((s.stopKeying l m).line l).mode = m := by
  rw [State.stopKeying_eq, State.line_modLine_self]
  rfl

/-- The silence check leaves a line of a silenced band SILENT, STOPPED or DISABLED (R14). -/
theorem State.silenceCheck_silenced (h : s.silencedLine l = true) :
    ((s.silenceCheck l).line l).mode.heldSilent = true := by
  unfold State.silenceCheck
  cases hm : (s.line l).mode <;> simp [h, hm, Mode.heldSilent, State.stopKeying_mode]

/-- No order takes a line of a silenced band out of SILENT, STOPPED and DISABLED (R16 to R19). -/
theorem State.actOrder_silenced (h : s.silencedLine l = true) (mode : (s.line l).mode.heldSilent = true)
    (order : LineOrder) : ((s.actOrder l order).1.line l).mode.heldSilent = true := by
  cases order <;> cases hm : (s.line l).mode <;> simp [hm, Mode.heldSilent] at mode <;>
    simp [State.actOrder, State.patternAllowed, hm, h, Mode.heldSilent, State.stopKeying_mode]

theorem State.orderStep_silenced (h : s.silencedLine l = true) (mode : (s.line l).mode.heldSilent = true) :
    ((s.orderStep l).1.line l).mode.heldSilent = true := by
  unfold State.orderStep
  split
  · exact mode
  · refine State.actOrder_silenced ?_ ?_ _
    · exact (State.silencedLine_congr rfl l).trans h
    · rw [State.line_modLine_self]; exact mode

theorem State.fixed_silenceCheck (s : State) (l : LineId) : (s.silenceCheck l).fixed = s.fixed := by
  unfold State.silenceCheck
  repeat' split
  all_goals simp

/-- After the mode step a line of a silenced band is SILENT, STOPPED or DISABLED (R13). -/
theorem State.modeStep_silenced (h : s.silencedLine l = true) :
    ((s.modeStep l).1.line l).mode.heldSilent = true := by
  have mode := State.orderStep_silenced ((State.silencedLine_congr (s.fixed_silenceCheck l) l).trans h)
    (State.silenceCheck_silenced h)
  have unkeyed : ((((s.silenceCheck l).orderStep l).1).line l).mode ≠ .keying := fun e => by
    rw [e] at mode; cases mode
  have same : (s.modeStep l).1 = ((s.silenceCheck l).orderStep l).1 := State.keyingCheck_other (.inl unkeyed)
  rwa [same]

/-- The choice of a line in SILENT, STOPPED or DISABLED (R3). -/
theorem State.choice_heldSilent (h : (s.line l).mode.heldSilent = true) : s.choice l = (s, .unkeyed) := by
  refine (s.choice_of_mode l).1 ?_
  cases hm : (s.line l).mode <;> simp_all [Mode.heldSilent]

/-- At its boundary a line of a silenced band is SILENT, STOPPED or DISABLED, and hands UNKEYED (R13). -/
theorem State.boundary_silenced (h : s.silencedLine l = true) :
    ((s.boundary l).line l).mode.heldSilent = true ∧ (s.recordHanded l).cycle = .unkeyed := by
  have mode : ((s.stepped l).line l).mode.heldSilent = true := by
    rw [State.stepped_eq]
    exact State.modeStep_silenced ((State.silencedLine_congr (s.fixed_worked l) l).trans h)
  have chosen : s.chosen l = (s.stepped l, .unkeyed) := by
    rw [State.chosen_eq, State.choice_heldSilent mode]
  rw [State.boundary_mode, State.recordHanded, chosen]
  exact ⟨mode, rfl⟩

/-! ## What every command keeps of the modes -/

/-- Between two cards no line leaves its mode but for DISABLED, and the read and the configuration stand. -/
structure Quiet (s t : State) : Prop where
  phase : t.phase = s.phase
  config : t.config = s.config
  modes : ∀ l, (t.line l).mode = (s.line l).mode ∨ (t.line l).mode = .disabled

theorem Quiet.refl (s : State) : Quiet s s := ⟨rfl, rfl, fun _ => .inl rfl⟩

theorem Quiet.trans (h1 : Quiet s t) (h2 : Quiet t u) : Quiet s u where
  phase := h2.phase.trans h1.phase
  config := h2.config.trans h1.config
  modes l := by
    rcases h2.modes l with e | e
    · exact (h1.modes l).imp e.trans e.trans
    · exact .inr e

theorem Quiet.of_lines (hp : t.phase = s.phase) (hc : t.config = s.config) (hl : t.lines = s.lines) :
    Quiet s t :=
  ⟨hp, hc, fun l => .inl (by rw [State.line_congr hl])⟩

theorem Quiet.of_fixed (hf : t.fixed = s.fixed) (hl : t.lines = s.lines) : Quiet s t :=
  .of_lines (State.fixed_fields hf).1.2.1 (State.fixed_fields hf).1.2.2.2.2.2.2 hl

theorem Quiet.modLine (s : State) (l : LineId) {f : Line → Line}
    (h : ∀ x, (f x).mode = x.mode ∨ (f x).mode = .disabled) : Quiet s (s.modLine l f) where
  phase := rfl
  config := rfl
  modes m := by
    by_cases hm : m = l
    · subst hm; rw [State.line_modLine_self]; exact h _
    · exact .inl (by rw [State.line_modLine_ne _ _ hm])

theorem Quiet.foldl {α : Type} {f : State → α → State} (h : ∀ t a, Quiet t (f t a)) (as : List α) :
    ∀ s : State, Quiet s (as.foldl f s) := by
  induction as with
  | nil => exact fun s => .refl s
  | cons a rest ih => exact fun s => (h s a).trans (ih _)

/-- The work of a line before its mode step leaves every line's mode (R2). -/
theorem LineWork.quiet (h : LineWork l cur s t) (hf : t.fixed = s.fixed) : Quiet s t where
  phase := (State.fixed_fields hf).1.2.1
  config := (State.fixed_fields hf).1.2.2.2.2.2.2
  modes m := by
    refine .inl ?_
    by_cases hm : m = l
    · subst hm; exact (Line.control_eq_iff.mp h.control).1
    · obtain ⟨q, e⟩ := h.bare m hm
      rw [e]

theorem PartWork.quiet (h : PartWork l s t) (hf : t.fixed = s.fixed) : Quiet s t := (h.lineWork none).quiet hf

/-! ### The store and the port -/

theorem Quiet.offerFrame (s : State) (f : Frame) : Quiet s (s.offerFrame f) :=
  .of_fixed (s.fixed_offerFrame f) (s.offerFrame_frame f).2.1

theorem Quiet.handReport (s : State) : Quiet s s.handReport := .of_fixed s.fixed_handReport s.handReport_frame.2.1

theorem Quiet.handReports (s : State) : Quiet s s.handReports := .of_fixed s.fixed_handReports s.handReports_lines

theorem Quiet.returnPages (s : State) (i : Slot) : Quiet s (s.returnPages i) :=
  .of_fixed (s.fixed_returnPages i) (by rw [State.returnPages_frame])

theorem Quiet.endWork (s : State) (i : Slot) : Quiet s (s.endWork i) :=
  .of_fixed (s.fixed_endWork i) (s.endWork_lines i)

theorem Quiet.leaveEntry (s : State) (i : Slot) : Quiet s (s.leaveEntry i) := by
  rcases s.leaveEntry_cases i with e | ⟨r, x, m, hr, hb, hm⟩
  · rw [e]; exact .refl s
  · rw [State.leaveEntry_eq hr hb hm]
    exact .modLine s m fun _ => .inl rfl

theorem Quiet.finishTelex (s : State) (i : Slot) (item : ReportItem) : Quiet s (s.finishTelex i item) :=
  ((Quiet.endWork s i).trans (.leaveEntry _ i)).trans (.of_lines rfl rfl rfl)

theorem Quiet.dropTaken (s : State) (i : Slot) : Quiet s (s.dropTaken i) :=
  ((Quiet.returnPages s i).trans (.leaveEntry _ i)).trans (.of_lines rfl rfl rfl)

theorem Quiet.leaveAllQueues (s : State) (i : Slot) : Quiet s (s.leaveAllQueues i) :=
  .foldl (fun t l => (PartWork.leaveQueues t i : PartWork l t (t.leaveQueues l i)).quiet rfl) lineIds s

theorem Quiet.endLoading (s : State) (i : Slot) (item : ReportItem) : Quiet s (s.endLoading i item) := by
  unfold State.endLoading
  split
  · exact .refl s
  · split
    · exact .finishTelex s i item
    · exact ((Quiet.endWork s i).trans (.leaveAllQueues _ i)).trans (.of_lines rfl rfl rfl)

theorem Quiet.takeText (s : State) (h : Header) (key : Key) (seq : Nat) (chunk : List Byte) :
    Quiet s (s.takeText h key seq chunk) := by
  have load : ∀ i r, Quiet s (s.loadChunk i r seq chunk) := by
    intro i r
    unfold State.loadChunk
    split
    · exact .refl s
    · split
      · exact .of_lines rfl rfl rfl
      · exact (Quiet.endLoading s i _).trans (.handReports _)
  unfold State.takeText
  split
  · exact .refl s
  · split
    · exact .refl s
    · split
      · split
        · split
          · exact load _ _
          · exact iteInduction (fun _ => .refl s) fun _ => .dropTaken s _
        · exact iteInduction (fun _ => load _ _) fun _ => .refl s
      · exact .refl s

theorem Quiet.endClaim (s : State) (k : Key) (i : Slot) : Quiet s (s.endClaim k i) :=
  (Quiet.returnPages s i).trans (.of_lines rfl rfl rfl)

theorem Quiet.abortClaim (s : State) (w : ClaimWindow) : Quiet s (s.abortClaim w) := by
  have removed : Quiet s (if w.noted then s else s.removeClaims w.key) :=
    iteInduction (fun _ => .refl s) fun _ => .of_lines rfl rfl rfl
  exact removed.trans (.endClaim _ _ _)

theorem Quiet.withdrawRecord (s : State) (i : Slot) (r : Record) : Quiet s (s.withdrawRecord i r) := by
  have marked : Quiet s (s.modRecord i fun r => { r with withdrawMark := true }) := .of_lines rfl rfl rfl
  unfold State.withdrawRecord
  split <;> split
  · exact .endClaim s _ i
  · exact (Quiet.finishTelex s i _).trans (.handReports _)
  · exact (Quiet.finishTelex s i _).trans (.handReports _)
  · exact marked
  · exact .refl s
  · exact (Quiet.endLoading s i _).trans (.handReports _)
  · exact marked
  all_goals exact .refl s

theorem Quiet.createRecord {k : Key} {n : Nat} {st : RecordState} {timer : Bool} {b : Body} {i : Slot}
    (h : s.createRecord k n st timer b = some (i, t)) : Quiet s t := by
  unfold State.createRecord at h
  split at h
  · split at h
    · cases h
    · cases h
      exact .of_lines rfl rfl rfl
  · cases h

theorem Quiet.sendTake (s : State) (key : Key) (i : Slot) : Quiet s (s.sendTake key i) :=
  Quiet.trans (t := s.modRecord i fun r => { r with takeWaiting := true }) (.of_lines rfl rfl rfl) (.offerFrame _ _)

theorem Quiet.evaluateOffer (s : State) (key : Key) (ship n : Nat) (band : Band) (clearAfter : Bool) :
    Quiet s (s.evaluateOffer key ship n band clearAfter) := by
  unfold State.evaluateOffer
  split
  · split
    · exact .refl s
    · next i s' h =>
      have opened : ∀ w, Quiet s' { s' with claims := s'.claims ++ [w] } := fun w => .of_lines rfl rfl rfl
      exact ((Quiet.createRecord h).trans (opened _)).trans (.offerFrame _ _)
  · exact .refl s

theorem Quiet.takeOffer (s : State) (key : Key) (ship n : Nat) (band : Band) (clearAfter : Bool) :
    Quiet s (s.takeOffer key ship n band clearAfter) := by
  unfold State.takeOffer
  split
  · exact .evaluateOffer s key ship n band clearAfter
  · split
    · exact .refl s
    · split
      · exact .refl s
      · exact .refl s
      all_goals exact iteInduction (fun _ => .refl s) fun _ => .sendTake s key _

theorem Quiet.placeMessage {i : Slot} {ship : Nat} {band : Band} (h : s.placeMessage l i ship band = some t) :
    Quiet s t := by
  unfold State.placeMessage at h
  split at h
  · cases h
    exact .modLine s l fun _ => .inl rfl
  · split at h
    · cases h
    · cases h
      exact .modLine s l fun _ => .inl rfl

theorem Quiet.takeMessage (s : State) (w : ClaimWindow) : Quiet s (s.takeMessage w) := by
  unfold State.takeMessage
  split
  · exact .endClaim s _ _
  · split
    · exact .endClaim s _ _
    · next l _ =>
      split
      · exact .endClaim s _ _
      · next t s1 h =>
        have taken : ∀ f : Record → Record, Quiet s1
            { (s1.modRecord w.slot f) with
              claims := (s1.modRecord w.slot f).claims.filter fun v => v.key ≠ w.key } :=
          fun f => .of_lines rfl rfl rfl
        exact (((Quiet.placeMessage h).trans (taken _)).trans (.sendTake _ w.key w.slot)).trans
          (.of_lines rfl rfl rfl)

theorem Quiet.resolveClaim (s : State) (w : ClaimWindow) : Quiet s (s.resolveClaim w) := by
  unfold State.resolveClaim
  split
  · exact (Quiet.abortClaim s w).trans (.handReports _)
  · split
    · exact .takeMessage s w
    · exact .endClaim s _ _

theorem Quiet.takeFromOther (s : State) (source : Station) (key : Key) : Quiet s (s.takeFromOther source key) := by
  unfold State.takeFromOther
  split
  · exact .refl s
  · split
    · exact .refl s
    · split
      · split
        · exact (Quiet.abortClaim s _).trans (.handReports _)
        · exact .refl s
      · exact iteInduction (fun _ => .dropTaken s _) fun _ => .refl s
      all_goals exact .refl s

theorem Quiet.takeEcho (s : State) (key : Key) : Quiet s (s.takeEcho key) := by
  unfold State.takeEcho
  split
  · exact .of_lines rfl rfl rfl
  · exact .refl s

theorem Quiet.abortAllClaims (s : State) : Quiet s s.abortAllClaims :=
  (Quiet.foldl (fun t w => .abortClaim t w) s.claims s).trans (.handReports _)

theorem Quiet.answerQuery (s : State) (dest : Station) (selector : Nat) : Quiet s (s.answerQuery dest selector) := by
  unfold State.answerQuery
  split
  · exact .offerFrame s _
  · split
    · exact .offerFrame s _
    · exact .refl s

theorem Quiet.joinQueue (s : State) (l : LineId) (i : Slot) (kind : ClassType) (cls : Nat) :
    Quiet s (s.joinQueue l i kind cls) :=
  .modLine s l fun x => by cases kind <;> exact .inl rfl

theorem Quiet.takePost (s : State) (key : Key) (cls : Fin 16) (n : Nat) (channels : List (Fin 1024)) :
    Quiet s (s.takePost key cls n channels) := by
  unfold State.takePost
  split
  · exact .refl s
  · split
    · exact .refl s
    · split
      · exact .offerFrame s _
      · unfold State.acceptPost
        dsimp only
        split
        · exact .offerFrame s _
        · next h => exact (Quiet.createRecord h).trans (.foldl (fun t l => .joinQueue t l _ _ _) _ _)

/-! ### The clock and the orders -/

theorem Quiet.takeOpening (s : State) (l : LineId) : Quiet s (s.takeOpening l) := by
  unfold State.takeOpening
  dsimp only
  split
  · exact .refl s
  · split
    · exact .modLine s l fun _ => .inl rfl
    · exact .modLine s l fun _ => .inl rfl

theorem Quiet.handOpenings (s : State) (ls : List LineId) : Quiet s (s.handOpenings ls) :=
  .foldl (fun t l => iteInduction (fun _ => .takeOpening t l) fun _ => .refl t) lineIds s

theorem Quiet.setMarks (s : State) (due : Nat → Bool) : Quiet s (s.setMarks due) := .of_lines rfl rfl rfl

theorem Quiet.clearMarks (s : State) : Quiet s s.clearMarks := .of_lines rfl rfl rfl

theorem Quiet.advanceMinute (s : State) : Quiet s s.advanceMinute := by
  have cleared : ∀ u, Quiet s u → Quiet s (if u.minute = 0 then u.clearMarks else u) := fun u h =>
    iteInduction (fun _ => h.trans (.clearMarks u)) fun _ => h
  have minute : Quiet s { s with minute := s.minute + 1 } := .of_lines rfl rfl rfl
  have h := cleared _ minute
  unfold State.advanceMinute
  generalize ({ s with minute := s.minute + 1 } : State) = u at h ⊢
  dsimp only
  generalize (if u.minute = 0 then u.clearMarks else u) = v at h ⊢
  split
  · exact (h.trans (.setMarks v _)).trans (.handOpenings _ _)
  · exact h

theorem Quiet.secondPasses (s : State) : Quiet s s.secondPasses := by
  unfold State.secondPasses
  split
  · exact Quiet.trans (t := { s with second := 0 }) (.of_lines rfl rfl rfl) (.advanceMinute _)
  · exact .of_lines rfl rfl rfl

theorem Quiet.dueWork (s : State) (new : Nat) : Quiet s (s.dueWork new) := by
  unfold State.dueWork
  dsimp only
  split
  · exact (Quiet.setMarks s _).trans (.handOpenings _ _)
  · split
    · exact .refl s
    · exact (((Quiet.setMarks s _).trans (.clearMarks _)).trans (.setMarks _ _)).trans (.handOpenings _ _)

theorem Quiet.setClock (s : State) (minute second : Nat) : Quiet s (s.setClock minute second) := by
  have due : Quiet s (if s.timeValid then s.dueWork minute else s) :=
    iteInduction (fun _ => .dueWork s minute) fun _ => .refl s
  unfold State.setClock
  generalize (if s.timeValid then s.dueWork minute else s) = u at due ⊢
  split
  · exact due.trans (.of_lines rfl rfl rfl)
  · exact .refl s

theorem Quiet.takeOrder (s : State) (l : LineId) (order : LineOrder) (source : Station) :
    Quiet s (s.takeOrder l order source) := by
  unfold State.takeOrder
  split
  · exact .offerFrame s _
  · split
    · exact .modLine s l fun _ => .inl rfl
    · exact .offerFrame s _

theorem Quiet.leaveAnswers (s : State) (mask : BandMask) (source : Station) :
    Quiet s (s.leaveAnswers mask source) where
  phase := rfl
  config := rfl
  modes l := by
    refine .inl ?_
    rw [State.leaveAnswers, State.line_mapLines]
    split <;> rfl

/-! ### ANNOUNCE -/

theorem Quiet.meet (s : State) (source : Station) (a : Announcement) : Quiet s (s.meet source a) := by
  have known : Quiet s { s with known := addKnown s.known source } := .of_lines rfl rfl rfl
  unfold State.meet
  dsimp only
  split
  · exact known.trans (.offerFrame _ _)
  · exact known

theorem Quiet.adopt (s : State) (a : Announcement) : Quiet s (s.adopt a) := by
  have joined : Quiet s { s with silenced := s.silenced ||| a.silenced } := .of_lines rfl rfl rfl
  unfold State.adopt
  split
  · dsimp only
    split
    · exact joined.trans (.setClock _ _ _)
    · exact joined
  · exact .refl s

theorem Quiet.loseChannel (s : State) (l : LineId) : Quiet s (s.loseChannel l) := by
  have disabled : Quiet s (s.modLine l Line.disable) := .modLine s l fun _ => .inr rfl
  unfold State.loseChannel
  dsimp only
  split
  · exact disabled
  · exact disabled.trans (.offerFrame _ _)

theorem Quiet.setRecordLines (s : State) (l : LineId) (messages : List Slot) :
    Quiet s (s.setRecordLines l messages) := by
  have place : ∀ t i, Quiet t (t.modRecord i fun r => r.modTelex fun x => { x with line := some l }) :=
    fun _ _ => .of_lines rfl rfl rfl
  exact .foldl place messages s

theorem Quiet.moveEntry (s : State) (e : Entry) : Quiet s (s.moveEntry e) := by
  unfold State.moveEntry
  split
  · next l _ =>
    have joined : Quiet s (s.modLine l fun x => { x with callList := x.callList ++ [{ e with recalled := false }] }) :=
      .modLine s l fun _ => .inl rfl
    exact joined.trans (.setRecordLines _ l e.messages)
  · exact (PartWork.returnMessages (l := 0) .conflict e.messages s).quiet (by simp)

theorem Quiet.conflictPart (s : State) (l : LineId) (i : Slot) : Quiet s (s.conflictPart l i) := by
  unfold State.conflictPart
  split
  · next r p _ _ =>
    have discarded : Quiet s (s.discardBsent i l) := .of_lines rfl rfl rfl
    have dropped : Quiet s (((s.discardBsent i l).leaveQueues l i).modRecord i fun r => r.dropPart l) :=
      (discarded.trans ((PartWork.leaveQueues _ i).quiet rfl)).trans (.of_lines rfl rfl rfl)
    dsimp only
    split
    · exact discarded.trans ((PartWork.withdrawPart _ i true).quiet (by simp))
    · generalize (((s.discardBsent i l).leaveQueues l i).modRecord i fun r => r.dropPart l) = u at dropped ⊢
      have told : Quiet s (if u.reports.any (fun q => q.slot = i && q.item = .conflict) then u
          else u.addReport i .conflict) :=
        iteInduction (fun _ => dropped) fun _ => dropped.trans (.of_lines rfl rfl rfl)
      generalize (if u.reports.any (fun q => q.slot = i && q.item = .conflict) then u
          else u.addReport i .conflict) = v at told ⊢
      split
      · exact told.trans (.endWork v i)
      · exact told.trans ((PartWork.retireIfDone (l := l) v i).quiet (by simp))
  · exact .refl s

theorem Quiet.giveUpTraffic (s : State) (l : LineId) : Quiet s (s.giveUpTraffic l) := by
  have lost : Quiet s (s.loseCircuit l false) :=
    (LineWork.loseCircuit s false (s.currentIs_currentOf l)).quiet (by simp)
  have emptied : Quiet (s.loseCircuit l false) ((s.loseCircuit l false).modLine l fun x => { x with callList := [] }) :=
    .modLine _ l fun _ => .inl rfl
  have moved := (lost.trans emptied).trans (.foldl .moveEntry ((s.loseCircuit l false).line l).callList _)
  exact moved.trans (.foldl (fun t i => .conflictPart t l i) slots _)

theorem Quiet.takeAnnounce (s : State) (source : Station) (a : Announcement) : Quiet s (s.takeAnnounce source a) := by
  have check : ∀ t l, Quiet t (t.checkConflict a l) := fun t l =>
    iteInduction (fun _ => (Quiet.loseChannel t l).trans (.giveUpTraffic _ l)) fun _ => .refl t
  have conflicts : ∀ t, Quiet t (t.conflicts source a) := fun t =>
    iteInduction (fun _ => .foldl check lineIds t) fun _ => .refl t
  unfold State.takeAnnounce
  split
  · exact .refl s
  · exact (((Quiet.meet s source a).trans (.adopt _ a)).trans (conflicts _)).trans (.handReports _)

/-! ### The commands -/

theorem Quiet.receive {act : State → State} (h : Quiet s (act s)) (k : FrameKind) (hd : Header)
    (poster : Station) (ok : Bool) : Quiet s (s.receive k hd poster ok act) :=
  State.receive_keeps (.refl s) (.of_lines rfl rfl rfl) (.of_lines rfl rfl rfl) h k hd poster ok

/-- The commands that give lines their modes, or act on them by mode: the others leave the modes (R13). -/
def setsModes : Instr → Bool
  | .pinReset _ | .configurationReadEnd _ | .boundary _ | .restart _ => true
  | _ => false

/-- A command that sets no modes leaves every line its mode, but that a conflict disables a line (R182). -/
theorem exec_quiet (c : Instr) (h : setsModes c = false) (s : State) : ∃ t, exec c s = .next t ∧ Quiet s t := by
  cases c with
  | pinReset | configurationReadEnd | boundary | restart => cases h
  | startIntervalExpiry => exact ⟨_, rfl, .of_lines rfl rfl rfl⟩
  | outcomeRecord line =>
    refine ⟨_, rfl, .modLine s line fun x => .inl ?_⟩
    unfold Line.takeOutcome
    split
    · rfl
    · split <;> rfl
  | secondTimerExpiry => exact ⟨_, rfl, iteInduction (fun _ => .secondPasses s) fun _ => .refl s⟩
  | time hd minute second => exact ⟨_, rfl, .receive (.setClock s _ _) _ _ _ _⟩
  | loadTimerExpiry key =>
    refine ⟨_, rfl, ?_⟩
    split
    · exact iteInduction (fun _ => (Quiet.endLoading s _ _).trans (.handReports _)) fun _ => .refl s
    · exact .refl s
  | claimWindowExpiry key =>
    refine ⟨_, rfl, ?_⟩
    split
    · exact .resolveClaim s _
    · exact .refl s
  | offer => exact ⟨_, rfl, .receive (.takeOffer s _ _ _ _ _) _ _ _ _⟩
  | claim => exact ⟨_, rfl, .receive (.of_lines rfl rfl rfl) _ _ _ _⟩
  | takeReceived hd key =>
    refine ⟨_, rfl, .receive ?_ _ _ _ _⟩
    split
    · exact .takeEcho s key
    · exact .takeFromOther s _ key
  | text => exact ⟨_, rfl, .receive (.takeText s _ _ _ _) _ _ _ _⟩
  | post => exact ⟨_, rfl, .receive (.takePost s _ _ _ _) _ _ _ _⟩
  | withdraw hd key =>
    refine ⟨_, rfl, .receive ?_ _ _ _ _⟩
    split
    · exact .withdrawRecord s _ _
    · exact .refl s
  | silence hd mask =>
    have changed : Quiet s { s with silenced := s.silenced ||| mask } := .of_lines rfl rfl rfl
    exact ⟨_, rfl, .receive
      (act := fun s => ({ s with silenced := s.silenced ||| mask } : State).leaveAnswers mask _)
      (changed.trans (.leaveAnswers _ mask _)) _ _ _ _⟩
  | resume hd mask =>
    have changed : Quiet s { s with silenced := s.silenced &&& ~~~mask } := .of_lines rfl rfl rfl
    exact ⟨_, rfl, .receive
      (act := fun s => ({ s with silenced := s.silenced &&& ~~~mask } : State).leaveAnswers mask _)
      (changed.trans (.leaveAnswers _ mask _)) _ _ _ _⟩
  | stopLine | startLine | patternOn | patternOff => exact ⟨_, rfl, .receive (.takeOrder s _ _ _) _ _ _ _⟩
  | announce => exact ⟨_, rfl, .receive (.takeAnnounce s _ _) _ _ _ _⟩
  | statusQuery => exact ⟨_, rfl, .receive (.answerQuery s _ _) _ _ _ _⟩
  | badFrame check =>
    have bad : Quiet s s.bumpBad := .of_lines rfl rfl rfl
    refine ⟨_, rfl, iteInduction (fun _ => ?_) fun _ => .refl s⟩
    cases check with
    | crc => exact bad.trans (.abortAllClaims _)
    | kind | length | source => exact bad
  | ignoredFrame => exact ⟨_, rfl, .refl s⟩
  | contention => exact ⟨_, rfl, iteInduction (fun _ => .refl s) fun _ => .of_lines rfl rfl rfl⟩
  | contentionLost | sendingCutShort => exact ⟨_, rfl, .of_lines rfl rfl rfl⟩
  | sendingComplete =>
    refine ⟨_, rfl, iteInduction (fun _ => ?_) fun _ => .refl s⟩
    exact Quiet.trans (t := { s with queue := s.queue.filter fun e => !e.onWire }) (.of_lines rfl rfl rfl)
      (.handReports _)
  | reportHanded => exact ⟨_, rfl, .handReport s⟩

/-- A quiet step that adds no band to the silenced set keeps the law of R13. -/
theorem Quiet.silenceHeld (h : Quiet s t) (held : s.silenceHeld)
    (bands : ∀ b < 8, t.silenced.getLsbD b = true → s.silenced.getLsbD b = true) : t.silenceHeld := by
  refine ⟨fun reading => ?_, fun l silenced => ?_⟩
  · have none := held.1 (h.phase.symm.trans reading)
    refine BitVec.eq_of_getLsbD_eq fun b hb => ?_
    cases ht : t.silenced.getLsbD b with
    | false => simp
    | true => simpa [none] using bands b hb ht
  · have before : s.silencedLine l = true := by
      rw [State.silencedLine, ← State.lineConfig_congr h.config]
      exact bands _ (t.lineConfig l).band.isLt silenced
    rcases h.modes l with e | e
    · rw [e]; exact held.2 l before
    · rw [e]; rfl

/-- A card with no band silenced keeps the law of R13. -/
theorem State.silenceHeld_of_none (h : s.silenced = 0) : s.silenceHeld :=
  ⟨fun _ => h, fun l hl => by simp [State.silencedLine, h] at hl⟩

/-- The stages of a boundary up to the mode step leave the mode of every other line. -/
theorem State.boundary_mode_ne {k : LineId} (h : k ≠ l) : ((s.boundary l).line k).mode = (s.line k).mode := by
  obtain ⟨q, e⟩ := (s.frames_stepped l).bare k h
  rw [State.boundary_line_ne s h, e, State.line_modLine_ne _ _ h]

/-- A RESTART leaves a line of a silenced band SILENT or DISABLED, and no other set (R22). -/
theorem State.restarted_silenceHeld (held : s.silenceHeld) : s.restarted.silenceHeld := by
  have record : ∀ t i, (State.restartRecord t i).fixed = t.fixed := fun t i => by
    unfold State.restartRecord
    repeat' split
    all_goals simp
  have work := State.fixed_foldl record slots s
  obtain ⟨⟨-, phase, -⟩, silenced, -⟩ := State.fixed_fields work
  unfold State.restarted
  generalize slots.foldl State.restartRecord s = u at phase silenced ⊢
  refine ⟨fun reading => silenced.trans (held.1 (phase.symm.trans reading)), fun l band => ?_⟩
  have same : u.silencedLine l = true := band
  simp only [State.line, vecOf_get, same, Line.restarted, if_true]
  split <;> rfl

/-- The law of R13 over a boundary. -/
theorem State.boundary_silenceHeld (held : s.silenceHeld) : (s.boundary l).silenceHeld := by
  obtain ⟨⟨-, phase, -, -, -, -, config⟩, silenced, -⟩ := State.fixed_fields (s.fixed_boundary l)
  refine ⟨fun reading => silenced.trans (held.1 (phase.symm.trans reading)), fun k band => ?_⟩
  have before : s.silencedLine k = true := by
    rwa [State.silencedLine, silenced, State.lineConfig_congr config] at band
  by_cases hk : k = l
  · subst hk
    exact (State.boundary_silenced before).1
  · rw [State.boundary_mode_ne hk]
    exact held.2 k before

/-- The law of R13 over one command that is not a quiet one. -/
theorem exec_silenceHeld {c : Instr} (h : setsModes c = true) (held : s.silenceHeld) (run : exec c s = .next t) :
    t.silenceHeld := by
  cases c with
  | pinReset pins => cases run; exact State.silenceHeld_of_none rfl
  | configurationReadEnd result =>
    cases run
    split
    · next reading =>
      have none := held.1 reading
      have announced : ∀ u : State, u.silenced = s.silenced → (u.offerAnnounce false false).silenceHeld := fun u e =>
        State.silenceHeld_of_none ((State.fixed_fields (u.fixed_offerFrame _)).2.1.trans (e.trans none))
      split
      · exact announced _ rfl
      · exact announced _ rfl
    · exact held
  | boundary l =>
    cases run
    split
    · exact State.boundary_silenceHeld held
    · exact held
  | restart hd =>
    cases run
    have restarted := State.restarted_silenceHeld held
    have answered : Quiet s.restarted (s.restarted.handReports.offerAnnounce false true) :=
      (Quiet.handReports _).trans (.offerFrame _ _)
    refine State.receive_keeps held ?_ ?_ ?_ _ _ _ _
    · exact held
    · exact held
    · exact answered.silenceHeld restarted fun b _ hb => by
        rwa [State.offerAnnounce, (State.fixed_fields (State.fixed_offerFrame _ _)).2.1,
          (State.fixed_fields (State.fixed_handReports _)).2.1] at hb
  | _ => cases h

/-- Settles O59: PIN_RESET and the end of the read find no band silenced, a boundary and a RESTART give lines of
silenced bands a silent mode, and every other command leaves the modes. -/
theorem stepKeepsSilence : Obligations.StepKeepsSilence := by
  unfold Obligations.StepKeepsSilence
  intro s t held run bands
  unfold step at run
  split at run
  · cases run; exact held
  · next c rest _ =>
    cases h : setsModes c with
    | true => exact exec_silenceHeld (s := { s with pending := rest }) h held run
    | false =>
      obtain ⟨u, ran, quiet⟩ := exec_quiet c h { s with pending := rest }
      cases ran.symm.trans run
      exact quiet.silenceHeld held bands

end Sys2Proof.Machine

namespace Sys2Proof.Machine

variable {l : LineId} {s t u w : State} {cur : Option Slot}

/-! ## The records and the reports at the end of a boundary -/

/-- What handing reports leaves of a card: each record, or none where it was in REPORTING; each report of a
record, or its frame in a queue that then holds 17 at most (R144, R145). -/
structure Handing (s t : State) : Prop where
  config : t.config = s.config
  records : ∀ i r, s.record i = some r → t.record i = some r ∨ (t.record i = none ∧ r.state = .reporting)
  reports : ∀ p r, p ∈ s.reports → s.record p.slot = some r →
    (p ∈ t.reports ∧ t.record p.slot = some r)
      ∨ ((⟨reportFrame s r p.item, false⟩ : Queued) ∈ t.queue ∧ t.queue.length ≤ 17)

theorem Handing.refl (s : State) : Handing s s := ⟨rfl, fun _ _ h => .inl h, fun _ _ hp hr => .inl ⟨hp, hr⟩⟩

theorem reportFrame_congr (h : t.config = s.config) (r : Record) (item : ReportItem) :
    reportFrame t r item = reportFrame s r item := by
  cases item <;> simp [reportFrame, State.lineConfig, h]

/-- A record freed is one in REPORTING that no report waits for (R145). -/
theorem Handing.freeIfSpent (h : Handing s t) (i : Slot) : Handing s (t.freeIfSpent i) := by
  rcases t.freeIfSpent_cases i with e | ⟨r0, hr0, reporting, unreported, e⟩
  · rw [e]; exact h
  · rw [e]
    refine ⟨h.config, fun j r hr => ?_, fun q r hq hr => (h.reports q r hq hr).imp_left fun ⟨mem, rec⟩ => ⟨mem, ?_⟩⟩
    · by_cases hj : j = i
      · subst hj
        refine .inr ⟨State.record_setRecord_self .., ?_⟩
        rcases h.records j r hr with same | ⟨gone, -⟩
        · rw [Option.some.inj (same.symm.trans hr0)]; exact reporting
        · exact absurd (gone.symm.trans hr0) nofun
      · rw [State.record_setRecord_ne _ _ hj]
        exact h.records j r hr
    · rwa [State.record_setRecord_ne _ _ (unreported q mem)]

/-- The oldest report leaves the list with its frame, or for a record that is gone (R144). -/
theorem Handing.handReport (h : Handing s t) : Handing s t.handReport := by
  unfold State.handReport
  cases hl : t.reports with
  | nil => exact h
  | cons p rest =>
    have later : ∀ q r, q ∈ t.reports → t.record q.slot = some r → q = p ∨ q ∈ rest := fun q r mem _ => by
      rw [hl] at mem; exact List.mem_cons.mp mem
    dsimp only
    split
    · next room =>
      cases hp : t.record p.slot with
      | none =>
        refine ⟨h.config, h.records, fun q r hq hr => ?_⟩
        refine (h.reports q r hq hr).imp_left fun ⟨mem, rec⟩ => ⟨?_, rec⟩
        refine (later q r mem rec).resolve_left fun e => ?_
        subst e
        exact absurd (hp.symm.trans rec) nofun
      | some r' =>
        refine Handing.freeIfSpent (t := { t with
          reports := rest, queue := enqueue (reportFrame t r' p.item) t.queue }) ⟨h.config, h.records, ?_⟩ _
        have short : (enqueue (reportFrame t r' p.item) t.queue).length ≤ 17 := by
          rw [length_enqueue]; exact Nat.succ_le_succ room
        intro q r hq hr
        rcases h.reports q r hq hr with ⟨mem, rec⟩ | ⟨mem, -⟩
        · rcases later q r mem rec with rfl | waits
          · obtain rfl : r = r' := Option.some.inj (rec.symm.trans hp)
            rw [reportFrame_congr h.config] at short ⊢
            exact .inr ⟨mem_enqueue_self _ _, short⟩
          · exact .inl ⟨waits, rec⟩
        · exact .inr ⟨mem_enqueue_of_mem mem, short⟩
    · exact h

theorem Handing.handReports (s : State) : Handing s s.handReports :=
  State.handReports_keeps (P := Handing s) (fun _ h => h.handReport) s (.refl s)

/-- What the end of a boundary leaves of a card: its line but for the record handed and the silence answer, its
records but for those in REPORTING, and each report of a record, or its frame. -/
structure Ended (l : LineId) (s t : State) : Prop where
  line : ∃ tag c, t.line l = (s.line l).handed tag c
  records : ∀ i r, s.record i = some r → t.record i = some r ∨ (t.record i = none ∧ r.state = .reporting)
  reports : ∀ p r, p ∈ s.reports → s.record p.slot = some r →
    p ∈ t.reports ∨ (⟨reportFrame s r p.item, false⟩ : Queued) ∈ t.queue

theorem State.finish_ended (s : State) (l : LineId) (m : Mode) (order : Option (Station × OrderResult)) (c : Cycle) :
    Ended l s (s.finish l m order c) := by
  have handing := Handing.handReports s
  obtain ⟨-, records, reports⟩ := s.handReports.answer_frame l m order
  refine ⟨⟨_, _, s.finish_line l m order c⟩, fun i r hr => ?_, fun p r hp hr => ?_⟩
  · rw [State.record_congr (s.finish_records l m order c)]
    exact handing.records i r hr
  · refine (handing.reports p r hp hr).imp (fun ⟨mem, _⟩ => ?_) fun ⟨mem, short⟩ => ?_
    · rwa [show (s.finish l m order c).reports = s.handReports.reports from reports]
    · rw [State.finish_queue]
      exact State.mem_answer_of_room mem (by simp only [Config.queueLimit]; omega)

/-- A boundary whose line chooses nothing ends from the card after the mode step (R3). -/
theorem State.boundary_ended (h : ((s.stepped l).line l).mode.heldSilent = true) :
    Ended l (s.stepped l) (s.boundary l) := by
  have chosen : s.chosen l = (s.stepped l, .unkeyed) := by
    rw [State.chosen_eq, State.choice_heldSilent h]
  rw [State.boundary_eq, chosen]
  exact State.finish_ended _ l _ _ _

end Sys2Proof.Machine

namespace Sys2Proof.Machine

variable {l : LineId} {s t u w : State} {cur : Option Slot}

/-! ## The bulletin on air of a line that stops keying -/

/-- A record without its part on a line, which is counted as cut or not (R85). -/
def Record.withoutPart (l : LineId) (cut : Bool) (r : Record) : Record :=
  (r.dropPart l).modBulletin fun b => { b with cutCounted := b.cutCounted || cut }

theorem Record.modBulletin_kept (r : Record) (f : Bulletin → Bulletin) :
    (r.modBulletin f).key = r.key ∧ (r.modBulletin f).state = r.state := by
  unfold Record.modBulletin
  split <;> exact ⟨rfl, rfl⟩

theorem Record.withoutPart_kept (r : Record) (l : LineId) (cut : Bool) :
    (r.withoutPart l cut).key = r.key ∧ (r.withoutPart l cut).state = r.state := by
  obtain ⟨key, state⟩ := (r.dropPart l).modBulletin_kept fun b => { b with cutCounted := b.cutCounted || cut }
  obtain ⟨key', state'⟩ := r.modBulletin_kept fun b => { b with parts := b.parts.filter fun p => p.line ≠ l }
  exact ⟨key.trans key', state.trans state'⟩

theorem Record.part?_withoutPart (r : Record) (l : LineId) (cut : Bool) : (r.withoutPart l cut).part? l = none := by
  rw [Record.part?, Record.withoutPart, Record.parts_countCut, ← Record.part?, Record.part?_dropPart, if_pos rfl]

/-- A part withdrawn leaves its queue and its record, and the last one of a marked record ends its work (R86). -/
theorem State.withdrawPart_cases (s : State) (i : Slot) (l : LineId) (cut : Bool) :
    s.withdrawPart i l cut = (s.leaveQueues l i).modRecord i (Record.withoutPart l cut)
      ∨ s.withdrawPart i l cut = ((s.leaveQueues l i).modRecord i (Record.withoutPart l cut)).finishWithdrawal i := by
  show State.finishIfWithdrawn ((s.leaveQueues l i).modRecord i (Record.withoutPart l cut)) i = _ ∨
    State.finishIfWithdrawn ((s.leaveQueues l i).modRecord i (Record.withoutPart l cut)) i = _
  generalize (s.leaveQueues l i).modRecord i (Record.withoutPart l cut) = u
  unfold State.finishIfWithdrawn
  split
  · exact .inl rfl
  · split
    · exact .inr rfl
    · exact .inl rfl

theorem State.withdrawPart_line (s : State) (i : Slot) (l : LineId) (cut : Bool) :
    (s.withdrawPart i l cut).line l = (s.leaveQueues l i).line l := by
  rcases s.withdrawPart_cases i l cut with e | e
  · rw [e]; rfl
  · rw [e]; exact State.line_congr (State.endWork_lines _ i) l

theorem State.withdrawPart_record_ne (s : State) {i j : Slot} (h : j ≠ i) (l : LineId) (cut : Bool) :
    (s.withdrawPart i l cut).record j = s.record j := by
  have same : ((s.leaveQueues l i).modRecord i (Record.withoutPart l cut)).record j = s.record j :=
    State.record_modRecord_ne _ _ h
  rcases s.withdrawPart_cases i l cut with e | e
  · rw [e]; exact same
  · rw [e]; exact (State.endWork_record_ne _ h).trans same

/-- The record of a part withdrawn: the part is gone from it, and its work may have ended (R86). -/
theorem State.withdrawPart_record {i : Slot} {r : Record} (h : s.record i = some r) (l : LineId) (cut : Bool) :
    ∃ r', (s.withdrawPart i l cut).record i = some r' ∧ r'.key = r.key ∧ r'.part? l = none
      ∧ (r'.state = r.state ∨ r'.state = .reporting) := by
  have record : ((s.leaveQueues l i).modRecord i (Record.withoutPart l cut)).record i = some (r.withoutPart l cut) := by
    rw [State.record_modRecord_self, show (s.leaveQueues l i).record i = some r from h]
    rfl
  obtain ⟨key, state⟩ := r.withoutPart_kept l cut
  have part := r.part?_withoutPart l cut
  rcases s.withdrawPart_cases i l cut with e | e
  · rw [e]; exact ⟨_, record, key, part, .inl state⟩
  · rw [e]; exact ⟨_, State.endWork_record record, key, part, .inr rfl⟩

theorem State.bulletinStopped_none (h : s.bulletinOnAir l = none) : s.bulletinStopped l = s := by
  rw [State.bulletinStopped, h]

theorem State.bulletinStopped_marked {i : Slot} (h : s.bulletinOnAir l = some i) (hm : s.isMarked i = true) :
    s.bulletinStopped l = s.withdrawPart i l true := by
  rw [State.bulletinStopped, h]
  exact if_pos hm

theorem State.bulletinStopped_unmarked {i : Slot} (h : s.bulletinOnAir l = some i) (hm : s.isMarked i = false) :
    s.bulletinStopped l = (s.modPart i l Part.abandoned).restartFirst l i := by
  rw [State.bulletinStopped, h]
  exact if_neg (by rw [hm]; exact nofun)

/-- A free part restarted first leaves the other queues (R119, log 17). -/
theorem State.restartFirst_line (s : State) (l : LineId) (i : Slot) : (s.restartFirst l i).line l
    = { s.line l with freeQueue := if (s.line l).freeQueue.contains i then i :: (s.line l).freeQueue.erase i
          else (s.line l).freeQueue } := by
  rw [State.restartFirst, State.line_modLine_self]
  cases (s.line l).freeQueue.contains i <;> rfl

/-- Of its line the stop of a bulletin touches the queues alone (R81, R85). -/
theorem State.bulletinStopped_line (s : State) (l : LineId) : ∃ cutIns windows frees,
    (s.bulletinStopped l).line l
      = { s.line l with cutInQueue := cutIns, windowQueue := windows, freeQueue := frees } := by
  cases hb : s.bulletinOnAir l with
  | none => rw [State.bulletinStopped_none hb]; exact ⟨_, _, _, rfl⟩
  | some i =>
    cases hm : s.isMarked i with
    | true =>
      rw [State.bulletinStopped_marked hb hm, State.withdrawPart_line, State.leaveQueues, State.line_modLine_self]
      exact ⟨_, _, _, rfl⟩
    | false =>
      rw [State.bulletinStopped_unmarked hb hm, State.restartFirst_line]
      exact ⟨_, _, _, rfl⟩

/-- Of the records the stop of a bulletin touches the bulletin's alone. -/
theorem State.bulletinStopped_record_ne {j : Slot} (h : s.bulletinOnAir l ≠ some j) :
    (s.bulletinStopped l).record j = s.record j := by
  cases hb : s.bulletinOnAir l with
  | none => rw [State.bulletinStopped_none hb]
  | some i =>
    have hj : j ≠ i := fun e => h (e ▸ hb)
    cases hm : s.isMarked i with
    | true => rw [State.bulletinStopped_marked hb hm, State.withdrawPart_record_ne _ hj]
    | false => rw [State.bulletinStopped_unmarked hb hm]; exact State.record_modRecord_ne _ _ hj

/-- A bulletin stopped unmarked: its part is abandoned (R81). -/
theorem State.bulletinStopped_record {i : Slot} {r : Record} (hb : s.bulletinOnAir l = some i)
    (hm : s.isMarked i = false) (hr : s.record i = some r) :
    (s.bulletinStopped l).record i = some (r.modPart l Part.abandoned) := by
  rw [State.bulletinStopped_unmarked hb hm]
  show (s.modPart i l Part.abandoned).record i = _
  rw [State.modPart, State.record_modRecord_self, hr]
  rfl

/-- The stop of a bulletin leaves each record its key. -/
theorem State.bulletinStopped_key {i : Slot} {r : Record} (h : s.record i = some r) (l : LineId) :
    ∃ r', (s.bulletinStopped l).record i = some r' ∧ r'.key = r.key := by
  by_cases hb : s.bulletinOnAir l = some i
  · cases hm : s.isMarked i with
    | true =>
      obtain ⟨r', hr', key, -⟩ := State.withdrawPart_record h l true
      exact ⟨r', State.bulletinStopped_marked hb hm ▸ hr', key⟩
    | false => exact ⟨_, State.bulletinStopped_record hb hm h, (r.modBulletin_kept _).1⟩
  · exact ⟨r, (State.bulletinStopped_record_ne hb).trans h, rfl⟩

/-- The bulletin stopped is on air no more, and one part at most was (R71). -/
theorem State.bulletinStopped_onAir (one : ∀ i ∈ (s.line l).bulletinSlots, ∀ j ∈ (s.line l).bulletinSlots,
    s.partOnAir l i = true → s.partOnAir l j = true → i = j) : (s.bulletinStopped l).bulletinOnAir l = none := by
  cases hb : s.bulletinOnAir l with
  | none => rwa [State.bulletinStopped_none hb]
  | some i =>
    obtain ⟨mem, air⟩ := State.bulletinOnAir_spec hb
    rw [State.bulletinOnAir_none_iff]
    intro j hj
    have hj' := (PartWork.bulletinStopped (l := l) s).slots j hj
    by_cases e : j = i
    · subst e
      rw [State.partOnAir_eq] at air ⊢
      cases hr : s.record j with
      | none => rw [hr] at air; cases air
      | some r =>
        cases hm : s.isMarked j with
        | true =>
          obtain ⟨r', hr', -, gone, -⟩ := State.withdrawPart_record hr l true
          rw [State.bulletinStopped_marked hb hm, hr', Option.any_some, Record.airs, gone]
          rfl
        | false =>
          rw [State.bulletinStopped_record hb hm hr, Option.any_some, Record.airs,
            r.part?_modPart l l Part.abandoned fun _ => rfl]
          cases r.part? l <;> simp [Part.abandoned]
    · have off : s.partOnAir l j = false := by
        cases ha : s.partOnAir l j with
        | false => rfl
        | true => exact absurd (one j hj' i mem ha air) e
      rw [State.partOnAir_eq] at off ⊢
      rwa [State.bulletinStopped_record_ne fun c => e (Option.some.inj (c.symm.trans hb))]

/-! ## The circuit of a line that stops keying -/

/-- Two cards whose line differs in its call list alone. -/
def CallsOnly (l : LineId) (s t : State) : Prop := ∃ q, t.line l = { s.line l with callList := q }

theorem CallsOnly.refl (l : LineId) (s : State) : CallsOnly l s s := ⟨_, rfl⟩

theorem CallsOnly.of_lines (h : t.lines = s.lines) (l : LineId) : CallsOnly l s t :=
  ⟨_, State.line_congr h l⟩

theorem CallsOnly.trans (h1 : CallsOnly l s t) (h2 : CallsOnly l t u) : CallsOnly l s u := by
  obtain ⟨q1, e1⟩ := h1
  obtain ⟨q2, e2⟩ := h2
  exact ⟨q2, by rw [e2, e1]⟩

theorem CallsOnly.modLine (s : State) (l m : LineId) (f : Line → List Entry) :
    CallsOnly l s (s.modLine m fun x => { x with callList := f x }) := by
  by_cases h : l = m
  · subst h; exact ⟨_, State.line_modLine_self ..⟩
  · exact ⟨_, State.line_modLine_ne _ _ h⟩

theorem CallsOnly.releaseCurrent (s : State) (l : LineId) (c : Circuit) :
    CallsOnly l s (s.releaseCurrent c) := by
  have left : ∀ i, CallsOnly l (s.endWork i) ((s.endWork i).leaveEntry i) := fun i => by
    rcases (s.endWork i).leaveEntry_cases i with e | ⟨r, x, m, hr, hb, hm⟩
    · rw [e]; exact .refl l _
    · rw [State.leaveEntry_eq hr hb hm]
      exact .modLine (s.endWork i) l m _
  have finish : ∀ i item, CallsOnly l s (s.finishTelex i item) := fun i item =>
    .trans (.of_lines (s.endWork_lines i) l) ((left i).trans (.of_lines (s := (s.endWork i).leaveEntry i) rfl l))
  unfold State.releaseCurrent State.releaseMessage
  split
  · exact .refl l s
  · split
    · split
      · exact finish _ _
      · exact .of_lines rfl l
    · exact .refl l s

theorem callsKept_callsKept (calls : List Entry) (ship : Nat) :
    callsKept (callsKept calls ship) ship = callsKept calls ship := by
  simp [callsKept]

/-- A record whose work is over: in REPORTING, without pages (R137, R149). -/
def Record.spent (r : Record) : Prop := r.state = .reporting ∧ r.pageList = [] ∧ r.reserved = []

/-- The operation of a circuit before LINKED, or its rephase, ended with no attempt (R21). -/
def State.operationEnded (s : State) (l : LineId) (c : Circuit) : State :=
  ((s.setCircuit l none).releaseCurrent c).freeEmptyEntry l c.ship

section operation

variable (s : State) (l : LineId) (c : Circuit)

theorem State.operationEnded_calls : ((s.operationEnded l c).line l).callList
    = callsKept (((s.setCircuit l none).releaseCurrent c).line l).callList c.ship := by
  rw [State.operationEnded, State.freeEmptyEntry, State.line_modLine_self]
  rfl

theorem State.operationEnded_line : ∃ q, (s.operationEnded l c).line l
    = { s.line l with circuit := none, callList := q } := by
  obtain ⟨q, e⟩ := (CallsOnly.releaseCurrent (s.setCircuit l none) l c).trans
    (.modLine _ l l fun x => callsKept x.callList c.ship)
  refine ⟨q, e.trans ?_⟩
  rw [State.setCircuit, State.line_modLine_self]

variable {s c}

/-- What the end of an operation leaves of the records: all but the message on air. -/
theorem State.operationEnded_record {j : Slot} (h : s.isOnAir j = false) :
    (s.operationEnded l c).record j = s.record j := by
  show ((s.setCircuit l none).releaseCurrent c).record j = s.record j
  cases hi : c.current with
  | none => simp only [State.releaseCurrent, hi]; rfl
  | some i =>
    simp only [State.releaseCurrent, hi, State.releaseMessage]
    have other : (s.setCircuit l none).isOnAir i = true → j ≠ i := fun air e => by
      subst e
      exact absurd (h.symm.trans air) nofun
    split
    · next air =>
      split
      · show (((s.setCircuit l none).endWork i).leaveEntry i).record j = s.record j
        have work := State.endWork_record_ne (s.setCircuit l none) (other air)
        refine Eq.trans ?_ work
        rcases ((s.setCircuit l none).endWork i).leaveEntry_cases i with e | ⟨r, x, m, hr, hb, hm⟩
        · rw [e]
        · rw [State.leaveEntry_eq hr hb hm]; rfl
      · exact State.record_modRecord_ne (s.setCircuit l none) _ (other air)
    · rfl

/-- The message on air of an operation that ends, unmarked, is READY again (log 8). -/
theorem State.operationEnded_ready {i : Slot} {r : Record} (hi : c.current = some i) (hr : s.record i = some r)
    (air : r.state = .onAir) (hm : r.withdrawMark = false) :
    (s.operationEnded l c).record i = some { r with state := .ready }
      ∧ ((s.operationEnded l c).line l).callList = callsKept (s.line l).callList c.ship := by
  have held : (s.setCircuit l none).record i = some r := hr
  have released : (s.setCircuit l none).releaseCurrent c
      = (s.setCircuit l none).modRecord i fun r => { r with state := .ready } := by
    simp [State.releaseCurrent, State.releaseMessage, State.isOnAir, State.isMarked, hi, held, air, hm]
  rw [State.operationEnded_calls, released]
  refine ⟨?_, congrArg (callsKept · c.ship) ?_⟩
  · show ((s.setCircuit l none).releaseCurrent c).record i = _
    rw [released, State.record_modRecord_self, held]
    rfl
  · show ((s.setCircuit l none).line l).callList = _
    rw [State.setCircuit, State.line_modLine_self]

/-- The message on air of an operation that ends, marked, is finished as WITHDRAWN(cut) (log 8). -/
theorem State.operationEnded_withdrawn {i : Slot} {r : Record} {z : Telex} (hi : c.current = some i)
    (hr : s.record i = some r) (hb : r.body = .telex z) (air : r.state = .onAir) (hm : r.withdrawMark = true) :
    (⟨i, .withdrawn true⟩ : Report) ∈ (s.operationEnded l c).reports
      ∧ (∃ r', (s.operationEnded l c).record i = some r' ∧ r'.key = r.key ∧ r'.spent)
      ∧ (z.line = some l → z.ship = c.ship → ((s.operationEnded l c).line l).callList
        = callsKept (callsWithout (s.line l).callList c.ship i) c.ship) := by
  have held : (s.setCircuit l none).record i = some r := hr
  have ended := State.endWork_record held
  have line : ((s.setCircuit l none).endWork i).line l = { s.line l with circuit := none } := by
    rw [State.line_congr (State.endWork_lines _ i), State.setCircuit, State.line_modLine_self]
  have released : (s.setCircuit l none).releaseCurrent c
      = (((s.setCircuit l none).endWork i).leaveEntry i).addReport i (.withdrawn true) := by
    simp [State.releaseCurrent, State.releaseMessage, State.isOnAir, State.isMarked, hi, held, air, hm]
    rfl
  have frame := (State.leaveEntry_spec ended hb).2.2
  rw [State.operationEnded_calls]
  have same : ∀ j, (s.operationEnded l c).record j = ((s.setCircuit l none).releaseCurrent c).record j := fun _ => rfl
  have reports : (s.operationEnded l c).reports = ((s.setCircuit l none).releaseCurrent c).reports := rfl
  rw [same, reports, released]
  have kept : ((((s.setCircuit l none).endWork i).leaveEntry i).addReport i (.withdrawn true)).records
      = ((s.setCircuit l none).endWork i).records := by
    show (((s.setCircuit l none).endWork i).leaveEntry i).records = _
    rw [frame]
  have final : ((((s.setCircuit l none).endWork i).leaveEntry i).addReport i (.withdrawn true)).record i = some _ :=
    (State.record_congr kept i).trans ended
  refine ⟨List.mem_append_right _ (List.mem_singleton_self _), ⟨_, final, rfl, rfl, rfl, rfl⟩, fun hl hs => ?_⟩
  · show callsKept (((((s.setCircuit l none).endWork i).leaveEntry i).line l).callList) c.ship = _
    have idle : ((({ s.line l with circuit := none } : Line)).worksFor z.ship) = false := rfl
    rw [State.leaveEntry_eq ended hb hl, State.line_modLine_self, line, idle, hs]
    exact callsKept_callsKept _ _

end operation

/-! ### A completed clear -/

/-- The messages of an entry returned: each record's report waits, and its work is over (R29, R149). -/
theorem State.returnMessages_spec (reason : Reason) (is : List Slot) : ∀ s : State,
    (∀ p ∈ s.reports, p ∈ (s.returnMessages reason is).reports)
      ∧ (∀ i ∈ is, (⟨i, .returned reason⟩ : Report) ∈ (s.returnMessages reason is).reports)
      ∧ ∀ i r, s.record i = some r → ∃ r', (s.returnMessages reason is).record i = some r' ∧ r'.key = r.key
        ∧ (i ∈ is ∨ r.spent → r'.spent) := by
  induction is with
  | nil => exact fun s => ⟨fun _ h => h, nofun, fun i r hr => ⟨r, hr, rfl, fun h => h.resolve_left nofun⟩⟩
  | cons j rest ih =>
    intro s
    obtain ⟨kept, reports, records⟩ := ih ((s.endWork j).addReport j (.returned reason))
    have added : ((s.endWork j).addReport j (.returned reason)).reports = s.reports ++ [⟨j, .returned reason⟩] := by
      rw [State.addReport, State.endWork_frame]
    refine ⟨fun p hp => kept p (by rw [added]; exact List.mem_append_left _ hp), fun i hi => ?_, fun i r hr => ?_⟩
    · rcases List.mem_cons.mp hi with rfl | hi
      · exact kept _ (by rw [added]; exact List.mem_append_right _ (List.mem_singleton_self _))
      · exact reports i hi
    · by_cases e : i = j
      · subst e
        obtain ⟨r', hr', key, spent⟩ := records i _ (State.endWork_record hr)
        exact ⟨r', hr', key, fun _ => spent (.inr ⟨rfl, rfl, rfl⟩)⟩
      · obtain ⟨r', hr', key, spent⟩ := records i r ((State.endWork_record_ne s e).trans hr)
        exact ⟨r', hr', key, fun h => spent (h.imp_left fun c => (List.mem_cons.mp c).resolve_left e)⟩

theorem State.returnMessages_lines (reason : Reason) (is : List Slot) : ∀ s : State,
    (s.returnMessages reason is).lines = s.lines := by
  induction is with
  | nil => exact fun _ => rfl
  | cons j rest ih => exact fun s => (ih _).trans (s.endWork_lines j)

/-- A call list after a failed attempt of its entry `e` (R29). -/
def callsAttempted (calls : List Entry) (e : Entry) (reason : Reason) : List Entry :=
  let others := calls.filter fun e' => e'.ship ≠ e.ship
  if 3 ≤ e.attempts + 1 ∨ e.messages = [] then others
  else others ++ [{ e with attempts := e.attempts + 1, retryHold := 60, lastFailure := some reason }]

/-- A call list after the clear of its entry `e` (R45). -/
def callsCleared (calls : List Entry) (e : Entry) (failed : Bool) : List Entry :=
  let others := calls.filter fun e' => e'.ship ≠ e.ship
  if e.messages = [] then others
  else if e.recalled then { e with retryHold := 0, recalled := false } :: others
  else if failed then calls
  else others ++ [e]

theorem Line.entry_ship {x : Line} {ship : Nat} {e : Entry} (h : x.entry? ship = some e) : e.ship = ship := by
  simpa using List.find?_some h

theorem State.countAttempt_none {ship : Nat} (h : (s.line l).entry? ship = none) (reason : Reason) :
    s.countAttempt l ship reason = s := by
  rw [State.countAttempt, h]

theorem State.countAttempt_line {ship : Nat} {e : Entry} (h : (s.line l).entry? ship = some e) (reason : Reason) :
    (s.countAttempt l ship reason).line l
      = { s.line l with callList := callsAttempted (s.line l).callList e reason } := by
  obtain rfl := Line.entry_ship h
  rw [State.countAttempt, h]
  dsimp only
  split
  · next third =>
    rw [State.line_congr (State.returnMessages_lines _ _ _), State.freeEntry, State.line_modLine_self,
      callsAttempted, if_pos (.inl third)]
  · next below =>
    split
    · next empty =>
      rw [State.freeEntry, State.line_modLine_self, callsAttempted, if_pos (.inr (by simpa using empty))]
    · next full =>
      rw [State.entryToTail, State.line_modLine_self, h, callsAttempted, if_neg]
      · rfl
      · exact fun c => c.elim below fun c => full (by simp [c])

theorem State.placeCleared_none {ship : Nat} (h : (s.line l).entry? ship = none) (failed : Bool) :
    s.placeCleared l ship failed = s := by
  rw [State.placeCleared, h]

theorem State.placeCleared_line {ship : Nat} {e : Entry} (h : (s.line l).entry? ship = some e) (failed : Bool) :
    (s.placeCleared l ship failed).line l
      = { s.line l with callList := callsCleared (s.line l).callList e failed } := by
  obtain rfl := Line.entry_ship h
  rw [State.placeCleared, h]
  dsimp only
  split
  · next empty =>
    rw [State.freeEntry, State.line_modLine_self, callsCleared, if_pos (by simpa using empty)]
  · next full =>
    have full' : e.messages ≠ [] := fun c => full (by simp [c])
    rw [callsCleared, if_neg full']
    split
    · rw [State.entryToHead, State.line_modLine_self, h]
    · split
      · rfl
      · rw [State.entryToTail, State.line_modLine_self, h]
        rfl

/-- The call list of a line whose circuit's clear completes, the entry of the ship being `e` (R45). -/
def callsAfterClear (calls : List Entry) (e : Entry) (cause : Option Reason) : List Entry :=
  match cause with
  | none => callsCleared calls e false
  | some reason =>
    let attempted := callsAttempted calls e reason
    match attempted.find? fun e' => e'.ship = e.ship with
    | none => attempted
    | some e' => callsCleared attempted e' true

theorem State.completeClear_line (s : State) (l : LineId) (c : Circuit) :
    (s.completeClear l c).line l = { s.line l with
      circuit := none
      counters := if c.clearCause.reason = none then (s.line l).counters
        else { (s.line l).counters with callsFailed := bump (s.line l).counters.callsFailed }
      callList := match (s.line l).entry? c.ship with
        | none => (s.line l).callList
        | some e => callsAfterClear (s.line l).callList e c.clearCause.reason } := by
  have line0 : (s.setCircuit l none).line l = { s.line l with circuit := none } := by
    rw [State.setCircuit, State.line_modLine_self]
  have entry0 : ((s.setCircuit l none).line l).entry? c.ship = (s.line l).entry? c.ship := by rw [line0]; rfl
  unfold State.completeClear
  dsimp only
  cases hr : c.clearCause.reason with
  | none =>
    dsimp only
    rw [if_pos rfl]
    cases he : (s.line l).entry? c.ship with
    | none => rw [State.placeCleared_none (entry0.trans he), line0]
    | some e =>
      rw [State.placeCleared_line (entry0.trans he), line0]
      rfl
  | some reason =>
    dsimp only
    rw [if_neg nofun]
    have line1 : ((s.setCircuit l none).modCounters l fun n => { n with callsFailed := bump n.callsFailed }).line l
        = { s.line l with
            circuit := none
            counters := { (s.line l).counters with callsFailed := bump (s.line l).counters.callsFailed } } := by
      rw [State.modCounters, State.line_modLine_self, line0]
    generalize (s.setCircuit l none).modCounters l _ = u at line1 ⊢
    have entry1 : (u.line l).entry? c.ship = (s.line l).entry? c.ship := by rw [line1]; rfl
    cases he : (s.line l).entry? c.ship with
    | none =>
      have gone := entry1.trans he
      rw [State.countAttempt_none gone, State.placeCleared_none gone, line1]
    | some e =>
      have line2 := State.countAttempt_line (entry1.trans he) reason
      rw [line1] at line2
      have ship := Line.entry_ship he
      have entry2 : ((u.countAttempt l c.ship reason).line l).entry? c.ship
          = (callsAttempted (s.line l).callList e reason).find? fun e' => e'.ship = e.ship := by
        rw [line2, Line.entry?, ship]
      dsimp only [callsAfterClear]
      cases hf : (callsAttempted (s.line l).callList e reason).find? fun e' => e'.ship = e.ship with
      | none => rw [State.placeCleared_none (entry2.trans hf), line2]
      | some e' => rw [State.placeCleared_line (entry2.trans hf), line2]

end Sys2Proof.Machine

namespace Sys2Proof.Machine

variable {l : LineId} {s t u w : State} {c : Circuit}

/-! ### The call list after a clear -/

theorem filter_ship_filter (calls : List Entry) (ship : Nat) :
    (calls.filter fun e => e.ship ≠ ship).find? (fun e => e.ship = ship) = none := by
  simp [List.find?_eq_none]

/-- A clear after a failed attempt that frees the entry leaves the other entries (R29, R45). -/
theorem callsAfterClear_freed {calls : List Entry} {e : Entry} {reason : Reason}
    (h : 3 ≤ e.attempts + 1 ∨ e.messages = []) :
    callsAfterClear calls e (some reason) = calls.filter fun e' => e'.ship ≠ e.ship := by
  simp only [callsAfterClear, callsAttempted, if_pos h, filter_ship_filter]

/-- A clear after a failed attempt below the third puts a recalled entry first and leaves any other last, to wait
60 boundaries (R29, R45). -/
theorem callsAfterClear_kept {calls : List Entry} {e : Entry} {reason : Reason} (few : e.attempts + 1 < 3)
    (full : e.messages ≠ []) :
    callsAfterClear calls e (some reason)
      = if e.recalled then { e with
            attempts := e.attempts + 1, lastFailure := some reason, retryHold := 0, recalled := false }
          :: calls.filter fun e' => e'.ship ≠ e.ship
        else (calls.filter fun e' => e'.ship ≠ e.ship)
          ++ [{ e with attempts := e.attempts + 1, lastFailure := some reason, retryHold := 60 }] := by
  have kept : ¬ (3 ≤ e.attempts + 1 ∨ e.messages = []) := fun h => h.elim (by omega) full
  have found : ∀ f : Entry, f.ship = e.ship →
      ((calls.filter fun e' => e'.ship ≠ e.ship) ++ [f]).find? (fun e' => e'.ship = e.ship) = some f := fun f hf => by
    rw [List.find?_append, filter_ship_filter]
    simp [hf]
  have attempted : callsAttempted calls e reason = (calls.filter fun e' => e'.ship ≠ e.ship)
      ++ [{ e with attempts := e.attempts + 1, retryHold := 60, lastFailure := some reason }] := if_neg kept
  simp only [callsAfterClear, attempted]
  rw [found { e with attempts := e.attempts + 1, retryHold := 60, lastFailure := some reason } rfl]
  simp only [callsCleared, if_neg full, if_true]
  simp [List.filter_append]

theorem State.placeCleared_frame (s : State) (l : LineId) (ship : Nat) (failed : Bool) :
    (s.placeCleared l ship failed).records = s.records ∧ (s.placeCleared l ship failed).reports = s.reports := by
  unfold State.placeCleared
  split
  · exact ⟨rfl, rfl⟩
  · split
    · exact ⟨rfl, rfl⟩
    · split
      · exact ⟨rfl, rfl⟩
      · split <;> exact ⟨rfl, rfl⟩

/-- The messages of an entry at its third failed attempt, as the clear of its circuit completes (R29, R45). -/
theorem State.completeClear_returned {e : Entry} {reason : Reason} (cause : c.clearCause.reason = some reason)
    (he : (s.line l).entry? c.ship = some e) (third : 3 ≤ e.attempts + 1) {i : Slot} (hi : i ∈ e.messages)
    {r : Record} (hr : s.record i = some r) :
    (⟨i, .returned reason⟩ : Report) ∈ (s.completeClear l c).reports
      ∧ ∃ r', (s.completeClear l c).record i = some r' ∧ r'.key = r.key ∧ r'.spent := by
  have line1 : (((s.setCircuit l none).modCounters l fun n => { n with callsFailed := bump n.callsFailed }).line
      l).entry? c.ship = (s.line l).entry? c.ship := by
    rw [State.modCounters, State.line_modLine_self, State.setCircuit, State.line_modLine_self]
    rfl
  have clear : s.completeClear l c = State.placeCleared (((s.setCircuit l none).modCounters l fun n =>
      { n with callsFailed := bump n.callsFailed }).countAttempt l c.ship reason) l c.ship true := by
    simp only [State.completeClear, cause]
  have first : ((s.setCircuit l none).modCounters l fun n => { n with callsFailed := bump n.callsFailed }).record i
      = some r := hr
  rw [clear]
  generalize (s.setCircuit l none).modCounters l _ = u at line1 first ⊢
  have count : u.countAttempt l c.ship reason = (u.freeEntry l c.ship).returnMessages reason e.messages := by
    simp only [State.countAttempt, line1, he]
    exact if_pos third
  rw [count]
  obtain ⟨records, reports⟩ := State.placeCleared_frame ((u.freeEntry l c.ship).returnMessages reason e.messages) l
    c.ship true
  obtain ⟨-, waits, kept⟩ := State.returnMessages_spec reason e.messages (u.freeEntry l c.ship)
  obtain ⟨r', hr', key, spent⟩ := kept i r first
  exact ⟨reports ▸ waits i hi, r', (State.record_congr records i).trans hr', key, spent (.inl hi)⟩

/-! ### What a circuit becomes -/

section stopCircuit

theorem State.stopCircuit_none (h : (s.line l).circuit = none) : s.stopCircuit l = s := by
  rw [State.stopCircuit, h]

variable (h : (s.line l).circuit = some c)
include h

theorem State.stopCircuit_linked (hs : c.state = .linked) : s.stopCircuit l = s.setCircuit l (some c.toParked) := by
  simp only [State.stopCircuit, h, hs]

theorem State.stopCircuit_parked (hs : c.state = .parked) : s.stopCircuit l = s := by
  simp only [State.stopCircuit, h, hs]

theorem State.stopCircuit_clearing (hs : c.state = .clearing) : s.stopCircuit l = s.completeClear l c := by
  simp only [State.stopCircuit, h, hs]

theorem State.stopCircuit_operation
    (hs : c.state = .calling ∨ c.state = .aligning ∨ c.state = .identifying ∨ c.state = .rephasing) :
    s.stopCircuit l = s.operationEnded l c := by
  rcases hs with hs | hs | hs | hs <;> simp only [State.stopCircuit, h, hs, State.operationEnded]

end stopCircuit

/-- A circuit that is not LINKED, PARKED or CLEARING is in an operation before LINKED, or in a rephase (R23). -/
theorem CircuitState.operation_of_ne {x : CircuitState} (h1 : x ≠ .linked) (h2 : x ≠ .parked) (h3 : x ≠ .clearing) :
    x = .calling ∨ x = .aligning ∨ x = .identifying ∨ x = .rephasing := by
  cases x <;> simp at *

/-- Of its line the stop of a circuit touches the circuit, the call list and the counters alone. -/
theorem State.stopCircuit_line (s : State) (l : LineId) : ∃ circuit calls counters, (s.stopCircuit l).line l
    = { s.line l with circuit := circuit, callList := calls, counters := counters } := by
  cases hc : (s.line l).circuit with
  | none => exact ⟨_, _, _, by rw [State.stopCircuit_none hc]⟩
  | some c =>
    by_cases linked : c.state = .linked
    · exact ⟨some c.toParked, _, _, by
        rw [State.stopCircuit_linked hc linked, State.setCircuit, State.line_modLine_self]⟩
    by_cases parked : c.state = .parked
    · exact ⟨_, _, _, by rw [State.stopCircuit_parked hc parked]⟩
    by_cases clearing : c.state = .clearing
    · exact ⟨_, _, _, by rw [State.stopCircuit_clearing hc clearing, State.completeClear_line]⟩
    · obtain ⟨q, e⟩ := s.operationEnded_line l c
      exact ⟨none, q, (s.line l).counters, by
        rw [State.stopCircuit_operation hc (CircuitState.operation_of_ne linked parked clearing), e]⟩

/-- Out of CLEARING the stop of a circuit leaves the counters, and every record that is not on air. -/
theorem State.stopCircuit_kept (h : ∀ c, (s.line l).circuit = some c → c.state ≠ .clearing) :
    ((s.stopCircuit l).line l).counters = (s.line l).counters
      ∧ ∀ i, s.isOnAir i = false → (s.stopCircuit l).record i = s.record i := by
  cases hc : (s.line l).circuit with
  | none => rw [State.stopCircuit_none hc]; exact ⟨rfl, fun _ _ => rfl⟩
  | some c =>
    by_cases linked : c.state = .linked
    · rw [State.stopCircuit_linked hc linked, State.setCircuit, State.line_modLine_self]
      exact ⟨rfl, fun _ _ => rfl⟩
    by_cases parked : c.state = .parked
    · rw [State.stopCircuit_parked hc parked]; exact ⟨rfl, fun _ _ => rfl⟩
    · obtain ⟨q, e⟩ := s.operationEnded_line l c
      rw [State.stopCircuit_operation hc (CircuitState.operation_of_ne linked parked (h c hc)), e]
      exact ⟨rfl, fun i hi => State.operationEnded_record _ hi⟩

end Sys2Proof.Machine

namespace Sys2Proof.Machine

variable {l : LineId} {m : Mode} {s t u v w : State} {c : Circuit}

/-! ## A line that has left keying, at the end of its boundary -/

/-- The work of a line that stops keying: its bulletin, its notice run and its circuit (R21). -/
def State.workStopped (s : State) (l : LineId) : State := ((s.bulletinStopped l).dropNotice l).stopCircuit l

theorem State.stopKeying_workStopped (s : State) (l : LineId) (m : Mode) :
    s.stopKeying l m = (s.workStopped l).modLine l (Line.stopped m) := rfl

/-- A card whose line has stopped keying for a mode: nothing else has changed of its work since, and the boundary
ends with it. -/
structure Stopped (l : LineId) (m : Mode) (w u t : State) : Prop where
  ended : Ended l u t
  line : ∃ h, u.line l = { Line.stopped m ((w.workStopped l).line l) with held := h }
  records : u.records = (w.workStopped l).records
  reports : u.reports = (w.workStopped l).reports
  config : u.config = w.config

namespace Stopped

variable (h : Stopped l m w u t)
include h

/-- A record out of REPORTING stands at the end of the boundary. -/
theorem record {i : Slot} {r : Record} (hr : (w.workStopped l).record i = some r) (hs : r.state ≠ .reporting) :
    t.record i = some r :=
  (h.ended.records i r ((State.record_congr h.records i).trans hr)).resolve_right fun e => hs e.2

/-- A record whose work is over stays so to the end of the boundary. -/
theorem spent {i : Slot} {r : Record} (hr : (w.workStopped l).record i = some r) (hs : r.spent) : workOver t i := by
  intro r' hr'
  rcases h.ended.records i r ((State.record_congr h.records i).trans hr) with e | ⟨e, -⟩
  · obtain rfl := Option.some.inj (hr'.symm.trans e)
    exact hs
  · exact absurd (hr'.symm.trans e) nofun

/-- A report of a record waits, or its frame is queued, at the end of the boundary. -/
theorem reported {i : Slot} {r r' : Record} {item : ReportItem} (mem : (⟨i, item⟩ : Report) ∈ (w.workStopped l).reports)
    (hr : (w.workStopped l).record i = some r') (key : r'.key = r.key) : reported w t i r item := by
  have frame : reportFrame u r' item = reportFrame w r item := by
    cases item <;> simp [reportFrame, State.lineConfig, h.config, key]
  have made := h.ended.reports ⟨i, item⟩ r' (h.reports ▸ mem) ((State.record_congr h.records i).trans hr)
  rwa [frame] at made

theorem fields : (t.line l).mode = m ∧ (t.line l).keyupCount = 0 ∧ (t.line l).fillerRun = 0
    ∧ (t.line l).window = ((w.workStopped l).line l).window
    ∧ (t.line l).arbiter = ⟨((w.workStopped l).line l).arbiter.phasePointer, .noTurn, 0, false, false⟩
    ∧ (t.line l).circuit = ((w.workStopped l).line l).circuit
    ∧ (t.line l).callList = ((w.workStopped l).line l).callList
    ∧ (t.line l).counters = ((w.workStopped l).line l).counters
    ∧ (t.line l).cutInQueue = ((w.workStopped l).line l).cutInQueue
    ∧ (t.line l).windowQueue = ((w.workStopped l).line l).windowQueue
    ∧ (t.line l).freeQueue = ((w.workStopped l).line l).freeQueue := by
  obtain ⟨tag, c, e⟩ := h.ended.line
  obtain ⟨held, e'⟩ := h.line
  rw [e, e']
  exact ⟨rfl, rfl, rfl, rfl, rfl, rfl, rfl, rfl, rfl, rfl, rfl⟩

end Stopped

/-- The card as its line's circuit stops: its bulletin and notice run are stopped. -/
def State.noticeDropped (s : State) (l : LineId) : State := (s.bulletinStopped l).dropNotice l

theorem State.workStopped_eq (s : State) (l : LineId) : s.workStopped l = (s.noticeDropped l).stopCircuit l := rfl

theorem State.noticeDropped_line (w : State) (l : LineId) : ∃ cutIns windows frees, (w.noticeDropped l).line l
    = { w.line l with
        cutInQueue := cutIns, windowQueue := windows, freeQueue := frees
        window := { (w.line l).window with noticeStep := 0 } } := by
  obtain ⟨a, b, c, e⟩ := w.bulletinStopped_line l
  refine ⟨a, b, c, ?_⟩
  rw [State.noticeDropped, State.dropNotice, State.modWindow, State.line_modLine_self, e]

/-- A telex record is no bulletin on air. -/
theorem State.noticeDropped_telex {i : Slot} {r : Record} {z : Telex} (hr : w.record i = some r)
    (hb : r.body = .telex z) (l : LineId) : (w.noticeDropped l).record i = some r := by
  refine (State.bulletinStopped_record_ne fun on => ?_).trans hr
  have air := (State.bulletinOnAir_spec on).2
  rw [State.partOnAir_eq, hr] at air
  simp [Record.airs, Record.part?, Record.parts, Record.bulletin?, hb] at air

/-- The window, the circuit, the call list and the counters as the circuit stops. -/
theorem State.noticeDropped_fields (w : State) (l : LineId) :
    ((w.noticeDropped l).line l).window = { (w.line l).window with noticeStep := 0 }
      ∧ ((w.noticeDropped l).line l).arbiter = (w.line l).arbiter
      ∧ ((w.noticeDropped l).line l).circuit = (w.line l).circuit
      ∧ ((w.noticeDropped l).line l).callList = (w.line l).callList
      ∧ ((w.noticeDropped l).line l).counters = (w.line l).counters := by
  obtain ⟨a, b, c, e⟩ := w.noticeDropped_line l
  rw [e]
  exact ⟨rfl, rfl, rfl, rfl, rfl⟩

/-- A clear that completes as its line stops keying (R21, R45). -/
theorem Stopped.clearCompleted (h : Stopped l m w u t) (hc : (w.line l).circuit = some c)
    (hs : c.state = .clearing) : clearCompleted w t l c := by
  obtain ⟨-, -, -, -, -, circuit, calls, counters, -⟩ := h.fields
  obtain ⟨-, -, circuit0, calls0, counters0⟩ := w.noticeDropped_fields l
  have stop : w.workStopped l = (w.noticeDropped l).completeClear l c :=
    State.stopCircuit_clearing (circuit0.trans hc) hs
  have entry : ((w.noticeDropped l).line l).entry? c.ship = (w.line l).entry? c.ship := by
    rw [Line.entry?, Line.entry?, calls0]
  have line := (w.noticeDropped l).completeClear_line l c
  rw [entry, calls0, counters0, ← stop] at line
  rw [line] at circuit calls counters
  have returned : ∀ e reason, c.clearCause.reason = some reason → (w.line l).entry? c.ship = some e →
      3 ≤ e.attempts + 1 → ∀ i ∈ e.messages, ∀ r, w.record i = some r →
      Machine.reported w t i r (.returned reason) ∧ workOver t i := by
    intro e reason cause he third i hi r hr
    obtain ⟨r0, hr0, key0⟩ := State.bulletinStopped_key hr l
    obtain ⟨waits, r', hr', key, spent⟩ :=
      State.completeClear_returned cause (entry.trans he) third hi (r := r0) hr0
    rw [← stop] at waits hr'
    exact ⟨h.reported waits hr' (key.trans key0), h.spent hr' spent⟩
  refine ⟨circuit, fun cause => ?_, fun cause => ?_, fun he => ?_,
    fun e he => ⟨fun cause => ?_, fun reason cause => ?_⟩⟩
  · rw [counters, cause]; rfl
  · have fails : c.clearCause.reason ≠ none := fun e => by
      cases hcc : c.clearCause <;> simp [hcc, ClearCause.reason] at e cause
    rw [counters, if_neg fails]
  · rw [calls, he]
  · have ship := Line.entry_ship he
    have after : (t.line l).callList = callsCleared (w.line l).callList e false := by
      rw [calls, he, cause]; rfl
    rw [after, ← ship, callsCleared]
    exact ⟨fun empty => if_pos empty, fun full recalled => by rw [if_neg full, if_pos recalled],
      fun full recalled => by rw [if_neg full, recalled]; rfl⟩
  · have ship := Line.entry_ship he
    have why : c.clearCause.reason = some reason := by
      rcases cause with e | e <;> obtain ⟨e1, rfl⟩ := Prod.mk.inj e <;> rw [e1] <;> rfl
    have after : (t.line l).callList = callsAfterClear (w.line l).callList e (some reason) := by
      rw [calls, he, why]
    dsimp only
    rw [after, ← ship]
    refine ⟨fun third => ⟨callsAfterClear_freed (.inl third), returned e reason why he third⟩,
      fun _ empty => callsAfterClear_freed (.inr empty), fun few full recalled => ?_, fun few full recalled => ?_⟩
    · rw [callsAfterClear_kept few full, if_pos recalled]
    · rw [callsAfterClear_kept few full, if_neg (by rw [recalled]; exact nofun)]

/-- The bulletin on air of a line whose circuit is not CLEARING, at the end of the boundary (R81, R85). -/
theorem Stopped.bulletin (h : Stopped l m w u t) (hc : ∀ c, (w.line l).circuit = some c → c.state ≠ .clearing)
    {i : Slot} {p : Part} (on : w.bulletinOnAir l = some i) (ready : w.isReady i = true)
    (hp : w.part? i l = some p) :
    (w.isMarked i = false →
        t.part? i l = some { p with state := .queued, formStep := 0, passMark := false }
          ∧ (t.line l).windowQueue = (w.line l).windowQueue ∧ (t.line l).cutInQueue = (w.line l).cutInQueue
          ∧ (i ∈ (w.line l).freeQueue → (t.line l).freeQueue = i :: (w.line l).freeQueue.erase i)
          ∧ (i ∉ (w.line l).freeQueue → (t.line l).freeQueue = (w.line l).freeQueue))
      ∧ (w.isMarked i = true → t.part? i l = none) := by
  obtain ⟨r, hr, hs⟩ : ∃ r, w.record i = some r ∧ r.state = .ready := by
    simpa [State.isReady, Option.any_eq_true] using ready
  have hp' : r.part? l = some p := by simpa [State.part?, hr] using hp
  obtain ⟨-, -, circuit0, -⟩ := w.noticeDropped_fields l
  obtain ⟨-, -, -, -, -, -, -, -, cutIns, windows, frees⟩ := h.fields
  obtain ⟨_, _, _, stop⟩ := (w.noticeDropped l).stopCircuit_line l
  rw [← State.workStopped_eq] at stop
  have kept := (State.stopCircuit_kept (s := w.noticeDropped l) (l := l) fun c e => hc c (circuit0.symm.trans e)).2 i
  rw [← State.workStopped_eq] at kept
  have off : ∀ r', (w.bulletinStopped l).record i = some r' → r'.state ≠ .onAir →
      (w.workStopped l).record i = some r' := fun r' hr' ne =>
    (kept (by
      have same : (w.noticeDropped l).record i = some r' := hr'
      simp [State.isOnAir, same, ne])).trans hr'
  refine ⟨fun unmarked => ?_, fun marked => ?_⟩
  · have state : (r.modPart l Part.abandoned).state = .ready := (r.modBulletin_kept _).2.trans hs
    have final := h.record (off _ (State.bulletinStopped_record on unmarked hr) (by rw [state]; exact nofun))
      (by rw [state]; exact nofun)
    have line : (w.noticeDropped l).line l = { w.line l with
        window := { (w.line l).window with noticeStep := 0 }
        freeQueue := if (w.line l).freeQueue.contains i then i :: (w.line l).freeQueue.erase i
          else (w.line l).freeQueue } := by
      rw [State.noticeDropped, State.dropNotice, State.modWindow, State.line_modLine_self,
        State.bulletinStopped_unmarked on unmarked, State.restartFirst_line]
      rfl
    rw [cutIns, windows, frees, stop, line]
    refine ⟨?_, rfl, rfl, fun mem => if_pos (List.contains_iff_mem.mpr mem),
      fun out => if_neg fun c => out (List.contains_iff_mem.mp c)⟩
    rw [State.part?, final]
    show (r.modPart l Part.abandoned).part? l = _
    rw [r.part?_modPart l l Part.abandoned fun _ => rfl, hp', Option.map_some, if_pos rfl]
    rfl
  · obtain ⟨r', hr', -, gone, state⟩ := State.withdrawPart_record hr l true
    rw [← State.bulletinStopped_marked on marked] at hr'
    have final := off r' hr' fun c => by
      rcases state with e | e
      · exact absurd (c.symm.trans (e.trans hs)) nofun
      · exact absurd (c.symm.trans e) nofun
    rw [State.part?]
    rcases h.ended.records i r' ((State.record_congr h.records i).trans final) with e | ⟨e, -⟩
    · rw [e]; exact gone
    · rw [e]; rfl

/-- The circuit's message on air as its line stops keying (R21, R43, log 8). -/
theorem Stopped.message (h : Stopped l m w u t) (hc : (w.line l).circuit = some c) {i : Slot} {r : Record}
    {z : Telex} (hi : c.current = some i) (hr : w.record i = some r) (hb : r.body = .telex z)
    (air : r.state = .onAir) :
    (c.state = .linked ∨ c.state = .parked → t.record i = some r)
      ∧ (c.state = .rephasing → r.withdrawMark = false →
        t.record i = some { r with state := .ready } ∧ (t.line l).callList = callsKept (w.line l).callList c.ship)
      ∧ (c.state = .rephasing → r.withdrawMark = true →
        Machine.reported w t i r (.withdrawn true) ∧ workOver t i
          ∧ (z.line = some l → z.ship = c.ship →
            (t.line l).callList = callsKept (callsWithout (w.line l).callList c.ship i) c.ship)) := by
  obtain ⟨-, -, -, -, -, -, calls, -⟩ := h.fields
  obtain ⟨-, -, circuit0, calls0, -⟩ := w.noticeDropped_fields l
  have hc0 := circuit0.trans hc
  have hr0 := State.noticeDropped_telex hr hb l
  have out : r.state ≠ .reporting := by rw [air]; exact nofun
  refine ⟨fun state => ?_, fun state unmarked => ?_, fun state marked => ?_⟩
  · refine h.record ?_ out
    rcases state with linked | parked
    · rw [State.workStopped_eq, State.stopCircuit_linked hc0 linked]; exact hr0
    · rw [State.workStopped_eq, State.stopCircuit_parked hc0 parked]; exact hr0
  · have stop : w.workStopped l = (w.noticeDropped l).operationEnded l c :=
      State.stopCircuit_operation hc0 (.inr (.inr (.inr state)))
    obtain ⟨ready, kept⟩ := State.operationEnded_ready (l := l) hi hr0 air unmarked
    rw [← stop] at ready kept
    exact ⟨h.record ready nofun, by rw [calls, kept, calls0]⟩
  · have stop : w.workStopped l = (w.noticeDropped l).operationEnded l c :=
      State.stopCircuit_operation hc0 (.inr (.inr (.inr state)))
    obtain ⟨waits, ⟨r', hr', key, spent⟩, kept⟩ := State.operationEnded_withdrawn (l := l) hi hr0 hb air marked
    rw [← stop] at waits hr' kept
    exact ⟨h.reported waits hr' key, h.spent hr' spent, fun hl hs => by rw [calls, kept hl hs, calls0]⟩

/-- The circuit and the call list of a line that has stopped keying (R21, log 8). -/
theorem Stopped.circuit (h : Stopped l m w u t) (hc : (w.line l).circuit = some c) :
    (c.state = .linked → (t.line l).circuit = some { c with state := .parked, silenceCount := 0 })
      ∧ (c.state = .parked → (t.line l).circuit = some c)
      ∧ (c.state ≠ .linked → c.state ≠ .parked → (t.line l).circuit = none)
      ∧ (c.state = .calling ∨ c.state = .aligning ∨ c.state = .identifying ∨ c.state = .rephasing →
        c.current = none → (t.line l).callList = callsKept (w.line l).callList c.ship)
      ∧ (c.state = .linked ∨ c.state = .parked → (t.line l).callList = (w.line l).callList) := by
  obtain ⟨-, -, -, -, -, circuit, calls, -⟩ := h.fields
  obtain ⟨-, -, circuit0, calls0, -⟩ := w.noticeDropped_fields l
  have hc0 := circuit0.trans hc
  have linked : c.state = .linked → (w.workStopped l).line l
      = { (w.noticeDropped l).line l with circuit := some c.toParked } := fun state => by
    rw [State.workStopped_eq, State.stopCircuit_linked hc0 state, State.setCircuit, State.line_modLine_self]
  have parked : c.state = .parked → (w.workStopped l).line l = (w.noticeDropped l).line l := fun state => by
    rw [State.workStopped_eq, State.stopCircuit_parked hc0 state]
  rw [circuit, calls]
  refine ⟨fun state => by rw [linked state]; rfl, fun state => by rw [parked state, hc0], fun nl np => ?_,
    fun state none => ?_, fun state => ?_⟩
  · by_cases clearing : c.state = .clearing
    · rw [State.workStopped_eq, State.stopCircuit_clearing hc0 clearing, State.completeClear_line]
    · obtain ⟨q, e⟩ := (w.noticeDropped l).operationEnded_line l c
      rw [State.workStopped_eq,
        State.stopCircuit_operation hc0 (CircuitState.operation_of_ne nl np clearing), e]
  · rw [State.workStopped_eq, State.stopCircuit_operation hc0 state, State.operationEnded_calls,
      State.releaseCurrent, none, State.setCircuit, State.line_modLine_self, calls0]
  · rcases state with state | state
    · rw [linked state]; exact calls0
    · rw [parked state]; exact calls0

/-- What a stop or a silence leaves of the work of its line, at the end of the boundary (R21). -/
theorem Stopped.keyingStopped (h : Stopped l m w u t) : keyingStopped w t l m := by
  obtain ⟨mode, keyups, fillers, window, arbiter, circuit, calls, counters, -⟩ := h.fields
  obtain ⟨window0, arbiter0, circuit0, calls0, counters0⟩ := w.noticeDropped_fields l
  obtain ⟨a, b, d, stop⟩ := (w.noticeDropped l).stopCircuit_line l
  rw [← State.workStopped_eq] at stop
  refine ⟨⟨mode, keyups, fillers, ?_, ?_⟩, fun hc => ?_, fun c hc => ?_, fun hc => ⟨?_, fun i p on ready hp =>
    h.bulletin hc on ready hp⟩⟩
  · rw [window, stop]; exact window0
  · rw [arbiter, stop]
    exact congrArg (fun a : Arbiter => (⟨a.phasePointer, .noTurn, 0, false, false⟩ : Arbiter)) arbiter0
  · rw [circuit, State.workStopped_eq, State.stopCircuit_none (circuit0.trans hc)]
    exact circuit0.trans hc
  · obtain ⟨linked, parked, gone, operation, kept⟩ := h.circuit hc
    exact ⟨linked, parked, gone, operation, kept, h.clearCompleted hc, fun i r z => h.message hc⟩
  · have kept := State.stopCircuit_kept (s := w.noticeDropped l) (l := l) fun c e => hc c (circuit0.symm.trans e)
    rw [counters, State.workStopped_eq, kept.1, counters0]

end Sys2Proof.Machine

namespace Sys2Proof.Machine

variable {l : LineId} {m : Mode} {s t u v w : State} {c : Circuit}

/-! ## The silence check at a boundary -/

/-- A boundary that ends with its line's keying stopped. -/
theorem Stopped.of_stopKeying (ended : Ended l (w.stopKeying l m) t) : Stopped l m w (w.stopKeying l m) t where
  ended := ended
  line := ⟨((w.workStopped l).line l).held, by
    rw [State.stopKeying_workStopped, State.line_modLine_self]; rfl⟩
  records := rfl
  reports := rfl
  config := (State.fixed_fields (w.fixed_stopKeying l m)).1.2.2.2.2.2.2

/-- What a boundary that finds its line in REST after the mode step hands (R10, R7). -/
def restChecked (s t : State) (l : LineId) (cycle : Cycle) : Prop :=
  (s.startInterval = false → (s.worked l).hasContent l = true →
      (t.line l).mode = .keying ∧ (t.line l).keyupCount = 1 ∧ cycle = .keyup)
    ∧ (s.startInterval = true ∨ (s.worked l).hasContent l = false → (t.line l).mode = .rest ∧ cycle = .unkeyed)

/-- A line in REST after the mode step, its traffic as the per-boundary work left it, is given the rest check. -/
theorem State.boundary_restChecked (mode : ((s.stepped l).line l).mode = .rest)
    (traffic : SameTraffic l (s.worked l) (s.stepped l)) :
    restChecked s (s.boundary l) l (s.recordHanded l).cycle := by
  have start : (s.stepped l).startInterval = s.startInterval := by
    rw [State.stepped_eq]
    exact State.startInterval_congr (by simp)
  have content := traffic.hasContent
  rw [restChecked, State.boundary_line, State.recordHanded, Line.handed_mode, Line.handed_keyupCount,
    State.chosen_eq, ← content, ← start]
  generalize s.stepped l = v at mode
  rw [(v.choice_of_mode l).2.2.2.1 mode]
  refine ⟨fun hs hc => ?_, fun h => ?_⟩
  · rw [State.restCheck_content hs hc, State.line_modLine_self]
    exact ⟨rfl, rfl, rfl⟩
  · rw [State.restCheck_rest h]
    exact ⟨mode, rfl⟩

/-- The mode step of a line without an order that the silence check leaves out of KEYING. -/
theorem State.stepped_unheld (held : (s.line l).held = none)
    (mode : (((s.worked l).silenceCheck l).line l).mode ≠ .keying) :
    s.stepped l = (s.worked l).silenceCheck l := by
  have none : (((s.worked l).silenceCheck l).line l).held = none := by
    rw [State.silenceCheck_held, (s.worked_kept l).2.2.2, held]
  rw [State.stepped_eq, State.modeStep, State.orderStep, none]
  generalize (s.worked l).silenceCheck l = v at mode
  exact State.keyingCheck_other (.inl mode)

/-- A line that keys or rests, its band silenced, stops keying at the silence check (R14). -/
theorem State.silenceCheck_stops (silenced : s.silencedLine l = true)
    (mode : (s.line l).mode = .rest ∨ (s.line l).mode = .keying ∨ (s.line l).mode = .active
      ∨ (s.line l).mode = .pattern) : s.silenceCheck l = s.stopKeying l .silent := by
  rcases mode with h | h | h | h <;> simp [State.silenceCheck, h, silenced]

theorem State.worked_silencedLine (s : State) (l : LineId) : (s.worked l).silencedLine l = s.silencedLine l :=
  State.silencedLine_congr (s.fixed_worked l) l

/-- Settles O11: the silence check takes the line to SILENT, where its work is stopped, or to REST, where the rest
check follows. -/
theorem silencedLineFallsSilent : Obligations.SilencedLineFallsSilent := by
  unfold Obligations.SilencedLineFallsSilent
  refine ⟨fun l s hp silenced => ?_, fun l s hp held => ⟨fun silenced mode => ?_, fun silenced mode => ?_,
    fun silenced mode => ?_⟩⟩
  · obtain ⟨mode, cycle⟩ := State.boundary_silenced silenced
    exact ⟨_, _, exec_boundary s l hp, mode, s.boundary_cycle l, cycle⟩
  · have check := State.silenceCheck_stops ((s.worked_silencedLine l).trans silenced)
      (by rwa [(s.worked_kept l).1])
    have after := (s.worked l).stopKeying_mode l .silent
    have stepped := State.stepped_unheld held (by rw [check, after]; exact nofun)
    rw [check] at stepped
    have ended := State.boundary_ended (s := s) (l := l) (by rw [stepped, after]; rfl)
    rw [stepped] at ended
    exact ⟨_, exec_boundary s l hp, (Stopped.of_stopKeying ended).keyingStopped⟩
  · have wmode := (s.worked_kept l).1.trans mode
    have check : (s.worked l).silenceCheck l = s.worked l := by
      simp [State.silenceCheck, wmode, s.worked_silencedLine, silenced]
    have stepped := State.stepped_unheld held (by rw [check, wmode]; exact nofun)
    rw [check] at stepped
    refine ⟨_, exec_boundary s l hp, ?_⟩
    rw [State.boundary_mode, State.chosen_eq, State.choice_heldSilent (by rw [stepped, wmode]; rfl), stepped, wmode]
  · have wmode := (s.worked_kept l).1.trans mode
    have check := State.silenceCheck_open ((s.worked_silencedLine l).trans silenced)
    rw [if_pos wmode] at check
    have rest : (((s.worked l).silenceCheck l).line l).mode = .rest := by rw [check, State.line_modLine_self]
    have stepped := State.stepped_unheld held (by rw [rest]; exact nofun)
    refine ⟨_, _, exec_boundary s l hp, s.boundary_cycle l, State.boundary_restChecked (by rw [stepped, rest]) ?_⟩
    rw [stepped, check]
    exact .modLine _ (fun _ => rfl) (fun _ => rfl) (fun _ => rfl) (fun _ => rfl) (fun _ => rfl) fun _ => rfl

end Sys2Proof.Machine

namespace Sys2Proof.Machine

/-! ## The stages before the order step do not read the held order -/

section natural

variable (s : State) (l k : LineId) (i : Slot)

@[simp] theorem State.record_dropOrder : (s.dropOrder l).record i = s.record i := rfl
@[simp] theorem State.reports_dropOrder : (s.dropOrder l).reports = s.reports := rfl
@[simp] theorem State.part?_dropOrder : (s.dropOrder l).part? i k = s.part? i k := rfl
@[simp] theorem State.isReady_dropOrder : (s.dropOrder l).isReady i = s.isReady i := rfl
@[simp] theorem State.isOnAir_dropOrder : (s.dropOrder l).isOnAir i = s.isOnAir i := rfl
@[simp] theorem State.isMarked_dropOrder : (s.dropOrder l).isMarked i = s.isMarked i := rfl
@[simp] theorem State.lineConfig_dropOrder : (s.dropOrder l).lineConfig k = s.lineConfig k := rfl
@[simp] theorem State.silencedLine_dropOrder : (s.dropOrder l).silencedLine k = s.silencedLine k := rfl

@[simp] theorem State.entry?_dropOrder (ship : Nat) :
    ((s.dropOrder l).line k).entry? ship = (s.line k).entry? ship := by
  simp [Line.entry?]

@[simp] theorem State.worksFor_dropOrder (ship : Nat) :
    ((s.dropOrder l).line k).worksFor ship = (s.line k).worksFor ship := by
  simp [Line.worksFor]

@[simp] theorem State.bulletinOnAir_dropOrder : (s.dropOrder l).bulletinOnAir l = s.bulletinOnAir l :=
  (SameTraffic.dropOrder s l).bulletinOnAir

@[simp] theorem State.nextPass_dropOrder : (s.dropOrder l).nextPass l = s.nextPass l := by
  simp only [State.nextPass, State.dropOrder_windowQueue, State.part?_dropOrder, State.sendable,
    State.isReady_dropOrder]

theorem State.ite_dropOrder {p : Prop} {d d' : Decidable p} {a b a' b' : State} (ha : a' = a.dropOrder l)
    (hb : b' = b.dropOrder l) : @ite State p d a' b' = (@ite State p d' a b).dropOrder l := by
  by_cases h : p
  · rwa [if_pos h, if_pos h]
  · rwa [if_neg h, if_neg h]

/-- Changes of two lines commute. -/
theorem State.modLine_comm {l k : LineId} (h : k ≠ l) (s : State) (f g : Line → Line) :
    (s.modLine l f).modLine k g = (s.modLine k g).modLine l f := by
  have hne : (l : Nat) ≠ k := fun e => h (Fin.ext e.symm)
  rw [State.modLine, State.line_modLine_ne _ _ h, State.modLine, State.modLine, State.modLine,
    State.line_setLine_ne _ _ h.symm]
  simp only [State.setLine]
  rw [Vector.set_comm _ _ hne]

/-- A change of a line that does not read the held order, nor changes it. -/
theorem State.modLine_dropOrder {f : Line → Line}
    (h : ∀ x : Line, f { x with held := none } = { f x with held := none }) :
    (s.dropOrder l).modLine k f = (s.modLine k f).dropOrder l := by
  by_cases hk : k = l
  · subst hk
    rw [State.dropOrder, State.modLine_modLine, State.dropOrder, State.modLine_modLine]
    exact congrArg (s.modLine k) (funext h)
  · exact State.modLine_comm hk s _ _

@[simp] theorem State.setCircuit_dropOrder (c : Option Circuit) :
    (s.dropOrder l).setCircuit k c = (s.setCircuit k c).dropOrder l := s.modLine_dropOrder l k fun _ => rfl
@[simp] theorem State.modWindow_dropOrder (f : Window → Window) :
    (s.dropOrder l).modWindow k f = (s.modWindow k f).dropOrder l := s.modLine_dropOrder l k fun _ => rfl
@[simp] theorem State.modCounters_dropOrder (f : LineCounters → LineCounters) :
    (s.dropOrder l).modCounters k f = (s.modCounters k f).dropOrder l := s.modLine_dropOrder l k fun _ => rfl
@[simp] theorem State.modEntry_dropOrder (ship : Nat) (f : Entry → Entry) :
    (s.dropOrder l).modEntry k ship f = (s.modEntry k ship f).dropOrder l := s.modLine_dropOrder l k fun _ => rfl
@[simp] theorem State.freeEntry_dropOrder (ship : Nat) :
    (s.dropOrder l).freeEntry k ship = (s.freeEntry k ship).dropOrder l := s.modLine_dropOrder l k fun _ => rfl
@[simp] theorem State.freeEmptyEntry_dropOrder (ship : Nat) :
    (s.dropOrder l).freeEmptyEntry k ship = (s.freeEmptyEntry k ship).dropOrder l :=
  s.modLine_dropOrder l k fun _ => rfl
@[simp] theorem State.entryToTail_dropOrder (ship : Nat) (f : Entry → Entry) :
    (s.dropOrder l).entryToTail k ship f = (s.entryToTail k ship f).dropOrder l := by
  rw [State.entryToTail_eq, State.entryToTail_eq]
  exact s.modLine_dropOrder l k fun _ => rfl
@[simp] theorem State.entryToHead_dropOrder (ship : Nat) (f : Entry → Entry) :
    (s.dropOrder l).entryToHead k ship f = (s.entryToHead k ship f).dropOrder l := by
  rw [State.entryToHead_eq, State.entryToHead_eq]
  exact s.modLine_dropOrder l k fun _ => rfl
@[simp] theorem State.leaveQueues_dropOrder : (s.dropOrder l).leaveQueues k i = (s.leaveQueues k i).dropOrder l :=
  s.modLine_dropOrder l k fun _ => rfl
@[simp] theorem State.joinQueue_dropOrder (kind : ClassType) (cls : Nat) :
    (s.dropOrder l).joinQueue k i kind cls = (s.joinQueue k i kind cls).dropOrder l :=
  s.modLine_dropOrder l k fun _ => by cases kind <;> rfl
@[simp] theorem State.restartFirst_dropOrder : (s.dropOrder l).restartFirst k i = (s.restartFirst k i).dropOrder l :=
  s.modLine_dropOrder l k fun x => by dsimp only; split <;> rfl
@[simp] theorem State.endOfMessage_dropOrder : (s.dropOrder l).endOfMessage k i = (s.endOfMessage k i).dropOrder l :=
  s.modWindow_dropOrder l k _
@[simp] theorem State.dropNotice_dropOrder : (s.dropOrder l).dropNotice k = (s.dropNotice k).dropOrder l :=
  s.modWindow_dropOrder l k _

@[simp] theorem State.modRecord_dropOrder (f : Record → Record) :
    (s.dropOrder l).modRecord i f = (s.modRecord i f).dropOrder l := rfl
@[simp] theorem State.setRecord_dropOrder (r : Option Record) :
    (s.dropOrder l).setRecord i r = (s.setRecord i r).dropOrder l := rfl
@[simp] theorem State.modPart_dropOrder (f : Part → Part) :
    (s.dropOrder l).modPart i k f = (s.modPart i k f).dropOrder l := rfl
@[simp] theorem State.addReport_dropOrder (item : ReportItem) :
    (s.dropOrder l).addReport i item = (s.addReport i item).dropOrder l := rfl
@[simp] theorem State.discardBsents_dropOrder :
    (s.dropOrder l).discardBsents i = (s.discardBsents i).dropOrder l := rfl

@[simp] theorem State.addBsent_dropOrder (rem : Remaining) :
    (s.dropOrder l).addBsent i k rem = (s.addBsent i k rem).dropOrder l := by
  by_cases h : (s.reports.any fun p => p.isBsentOf i k) = true
  · simp only [State.addBsent, State.reports_dropOrder, h, if_true]
    rfl
  · simp [State.addBsent, h]

@[simp] theorem State.returnPages_dropOrder : (s.dropOrder l).returnPages i = (s.returnPages i).dropOrder l := by
  cases h : s.record i with
  | none => simp [State.returnPages, h]
  | some r =>
    simp only [State.returnPages, State.record_dropOrder, h]
    rfl

@[simp] theorem State.endWork_dropOrder : (s.dropOrder l).endWork i = (s.endWork i).dropOrder l := by
  simp [State.endWork]

@[simp] theorem State.freeIfSpent_dropOrder : (s.dropOrder l).freeIfSpent i = (s.freeIfSpent i).dropOrder l := by
  cases h : s.record i with
  | none => simp [State.freeIfSpent, h]
  | some r =>
    simp only [State.freeIfSpent, State.record_dropOrder, h]
    exact State.ite_dropOrder l rfl rfl

@[simp] theorem State.retireIfDone_dropOrder : (s.dropOrder l).retireIfDone i = (s.retireIfDone i).dropOrder l := by
  cases h : s.record i with
  | none => simp [State.retireIfDone, h]
  | some r => simp only [State.retireIfDone, State.record_dropOrder, h]; split <;> simp

@[simp] theorem State.finishIfWithdrawn_dropOrder :
    (s.dropOrder l).finishIfWithdrawn i = (s.finishIfWithdrawn i).dropOrder l := by
  cases h : s.record i with
  | none => simp [State.finishIfWithdrawn, h]
  | some r =>
    simp only [State.finishIfWithdrawn, State.finishWithdrawal, State.record_dropOrder, h]
    split <;> simp

@[simp] theorem State.withdrawPart_dropOrder (cut : Bool) :
    (s.dropOrder l).withdrawPart i k cut = (s.withdrawPart i k cut).dropOrder l := by
  simp [State.withdrawPart]

@[simp] theorem State.leaveEntry_dropOrder : (s.dropOrder l).leaveEntry i = (s.leaveEntry i).dropOrder l := by
  cases h : (s.record i).bind Record.telex? with
  | none => simp [State.leaveEntry, h]
  | some x =>
    cases hl : x.line with
    | none => simp [State.leaveEntry, h, hl]
    | some k =>
      simp only [State.leaveEntry, State.record_dropOrder, h, hl, State.worksFor_dropOrder]
      split <;> simp

@[simp] theorem State.finishTelex_dropOrder (item : ReportItem) :
    (s.dropOrder l).finishTelex i item = (s.finishTelex i item).dropOrder l := by
  simp [State.finishTelex]

@[simp] theorem State.returnMessages_dropOrder (reason : Reason) (is : List Slot) :
    (s.dropOrder l).returnMessages reason is = (s.returnMessages reason is).dropOrder l := by
  induction is generalizing s with
  | nil => rfl
  | cons i rest ih => simp [State.returnMessages, ih]

@[simp] theorem State.countAttempt_dropOrder (ship : Nat) (reason : Reason) :
    (s.dropOrder l).countAttempt k ship reason = (s.countAttempt k ship reason).dropOrder l := by
  simp only [State.countAttempt, State.entry?_dropOrder]
  split
  · rfl
  · split
    · simp
    · split <;> simp

@[simp] theorem State.clearPassMarks_dropOrder :
    (s.dropOrder l).clearPassMarks k = (s.clearPassMarks k).dropOrder l := by
  simp only [State.clearPassMarks, State.dropOrder_windowQueue]
  generalize (s.line k).windowQueue = is
  induction is generalizing s with
  | nil => rfl
  | cons i rest ih => simp [ih]

@[simp] theorem State.closeWindow_dropOrder : (s.dropOrder l).closeWindow k = (s.closeWindow k).dropOrder l := by
  rw [State.closeWindow, State.clearPassMarks_dropOrder]
  exact (s.clearPassMarks k).modLine_dropOrder l k fun _ => rfl

@[simp] theorem State.unitEnds_dropOrder : (s.dropOrder l).unitEnds l = (s.unitEnds l).dropOrder l := by
  have marked : (s.dropOrder l).modLine l (fun x => { x with
        window := { x.window with unitsEnded := true }, arbiter := x.arbiter.endBTurn })
      = (s.modLine l fun x => { x with
        window := { x.window with unitsEnded := true }, arbiter := x.arbiter.endBTurn }).dropOrder l :=
    s.modLine_dropOrder l l fun _ => rfl
  simp only [State.unitEnds, State.dropOrder_window, marked, State.nextPass_dropOrder]
  split
  · split <;> simp
  · rfl

@[simp] theorem State.requeue_dropOrder (kind : ClassType) (finished : Bool) :
    (s.dropOrder l).requeue k i kind finished = (s.requeue k i kind finished).dropOrder l := by
  cases finished <;> cases kind <;> simp [State.requeue]

@[simp] theorem State.completeSending_dropOrder :
    (s.dropOrder l).completeSending l i = (s.completeSending l i).dropOrder l := by
  cases hp : s.part? i l with
  | none => simp [State.completeSending, hp]
  | some p =>
    cases hb : (s.record i).bind Record.bulletin? with
    | none => simp [State.completeSending, hp, hb]
    | some b =>
      simp only [State.completeSending, State.part?_dropOrder, State.record_dropOrder, hp, hb]
      split <;> simp

@[simp] theorem State.endNotice_dropOrder : (s.dropOrder l).endNotice l = (s.endNotice l).dropOrder l := by
  simp only [State.endNotice, State.dropOrder_window]
  split <;> simp

@[simp] theorem State.releaseMessage_dropOrder :
    (s.dropOrder l).releaseMessage i = (s.releaseMessage i).dropOrder l := by
  simp only [State.releaseMessage, State.isOnAir_dropOrder, State.isMarked_dropOrder]
  exact State.ite_dropOrder l (State.ite_dropOrder l (by simp) (by simp)) rfl

variable (c : Circuit)

@[simp] theorem State.releaseCurrent_dropOrder :
    (s.dropOrder l).releaseCurrent c = (s.releaseCurrent c).dropOrder l := by
  cases h : c.current <;> simp [State.releaseCurrent, h]

@[simp] theorem State.endCurrent_dropOrder :
    (s.dropOrder l).endCurrent k c = (s.endCurrent k c).dropOrder l := by
  cases h : c.current <;> simp [State.endCurrent, h]

@[simp] theorem State.loseCircuit_dropOrder (attempt : Bool) :
    (s.dropOrder l).loseCircuit k attempt = (s.loseCircuit k attempt).dropOrder l := by
  cases h : (s.line k).circuit <;> cases attempt <;> simp [State.loseCircuit, h]

@[simp] theorem State.placeCleared_dropOrder (ship : Nat) (failed : Bool) :
    (s.dropOrder l).placeCleared k ship failed = (s.placeCleared k ship failed).dropOrder l := by
  simp only [State.placeCleared, State.entry?_dropOrder]
  split
  · rfl
  · split
    · simp
    · split
      · simp
      · split <;> simp

@[simp] theorem State.completeClear_dropOrder :
    (s.dropOrder l).completeClear k c = (s.completeClear k c).dropOrder l := by
  cases h : c.clearCause.reason <;> simp [State.completeClear, h]

/-! ### Settling -/

variable (o : Outcome)

@[simp] theorem State.settleCall_dropOrder :
    (s.dropOrder l).settleCall k c o = (s.settleCall k c o).dropOrder l := by
  unfold State.settleCall
  split
  · simp
  · split <;> simp

@[simp] theorem State.settleAlign_dropOrder :
    (s.dropOrder l).settleAlign k c o = (s.settleAlign k c o).dropOrder l := by
  simp [State.settleAlign]

@[simp] theorem State.settleIdent_dropOrder :
    (s.dropOrder l).settleIdent k c o = (s.settleIdent k c o).dropOrder l := by
  unfold State.settleIdent
  split
  · split <;> simp
  · split <;> simp

@[simp] theorem State.notAcknowledged_dropOrder (isBlock : Bool) :
    (s.dropOrder l).notAcknowledged k c isBlock = (s.notAcknowledged k c isBlock).dropOrder l := by
  cases isBlock <;> simp only [State.notAcknowledged, if_true, Bool.false_eq_true, if_false] <;> split
  case false.isTrue | true.isTrue => simp
  all_goals split <;> simp

@[simp] theorem State.deliver_dropOrder (clearAfter : Bool) :
    (s.dropOrder l).deliver k c i clearAfter = (s.deliver k c i clearAfter).dropOrder l := by
  simp only [State.deliver, State.finishTelex_dropOrder, State.setCircuit_dropOrder, State.modEntry_dropOrder,
    State.endOfMessage_dropOrder, State.entry?_dropOrder]
  split <;> rfl

@[simp] theorem State.blockGood_dropOrder :
    (s.dropOrder l).blockGood k c i = (s.blockGood k c i).dropOrder l := by
  cases h : s.record i with
  | none => simp [State.blockGood, h]
  | some r =>
    simp only [State.blockGood, State.record_dropOrder, h]
    split <;> simp

@[simp] theorem State.settleBlock_dropOrder :
    (s.dropOrder l).settleBlock k c o = (s.settleBlock k c o).dropOrder l := by
  unfold State.settleBlock
  split
  · split
    · simp
    · split <;> simp [State.cutGood]
  · simp

@[simp] theorem State.settleIdle_dropOrder :
    (s.dropOrder l).settleIdle k c o = (s.settleIdle k c o).dropOrder l := by
  unfold State.settleIdle
  split <;> simp

@[simp] theorem State.settleRephase_dropOrder :
    (s.dropOrder l).settleRephase k c o = (s.settleRephase k c o).dropOrder l := by
  unfold State.settleRephase
  split
  · simp
  · split <;> simp

@[simp] theorem State.settleCircuit_dropOrder (ended : Cycle) :
    (s.dropOrder l).settleCircuit k c ended o = (s.settleCircuit k c ended o).dropOrder l := by
  unfold State.settleCircuit
  split
  case h_8 => split <;> simp
  all_goals simp

@[simp] theorem State.settle_dropOrder (ended : Option Cycle) (o : Option Outcome) :
    (s.dropOrder l).settle l ended o = (s.settle l ended o).dropOrder l := by
  have cleared : (s.dropOrder l).modLine l (fun x => { x with outcome := none })
      = (s.modLine l fun x => { x with outcome := none }).dropOrder l := s.modLine_dropOrder l l fun _ => rfl
  simp only [State.settle, cleared, State.bulletinOnAir_dropOrder, State.dropOrder_circuit]
  generalize s.modLine l (fun x => { x with outcome := none }) = u
  split
  · rfl
  · split <;> simp
  · simp
  · split <;> simp

/-! ### The per-boundary work -/

@[simp] theorem State.decreaseHolds_dropOrder (before : List Entry) :
    (s.dropOrder l).decreaseHolds k before = (s.decreaseHolds k before).dropOrder l :=
  s.modLine_dropOrder l k fun _ => rfl

@[simp] theorem State.silenceStep_dropOrder (ended : Option Cycle) (o : Option Outcome) :
    (s.dropOrder l).silenceStep k ended o = (s.silenceStep k ended o).dropOrder l := by
  simp only [State.silenceStep, State.dropOrder_circuit, State.lineConfig_dropOrder]
  split
  · rfl
  · split
    · split
      · simp
      · exact State.ite_dropOrder l (by simp) (by simp)
    · rfl

@[simp] theorem State.emptiedCheck_dropOrder :
    (s.dropOrder l).emptiedCheck k = (s.emptiedCheck k).dropOrder l := by
  simp only [State.emptiedCheck, State.dropOrder_circuit, State.entry?_dropOrder]
  split
  · rfl
  · split
    · split <;> simp
    · rfl

@[simp] theorem State.removeWithdrawn_dropOrder :
    (s.dropOrder l).removeWithdrawn k i = (s.removeWithdrawn k i).dropOrder l := by
  simp only [State.removeWithdrawn, State.isMarked_dropOrder, State.part?_dropOrder]
  exact State.ite_dropOrder l (by simp) rfl

@[simp] theorem State.removeAllWithdrawn_dropOrder :
    (s.dropOrder l).removeAllWithdrawn k = (s.removeAllWithdrawn k).dropOrder l := by
  unfold State.removeAllWithdrawn
  generalize slots = is
  induction is generalizing s with
  | nil => rfl
  | cons i rest ih => simp [ih]

@[simp] theorem State.deferralStep_dropOrder :
    (s.dropOrder l).deferralStep k = (s.deferralStep k).dropOrder l := s.modWindow_dropOrder l k _

@[simp] theorem State.opensPending_dropOrder :
    ((s.dropOrder l).line k).opensPending = (s.line k).opensPending := by
  simp [Line.opensPending]

@[simp] theorem State.openPending_dropOrder :
    (s.dropOrder l).openPending k = (s.openPending k).dropOrder l := by
  have test : (s.dropOrder l).fitTest k = s.fitTest k := by
    simp only [State.fitTest, State.dropOrder_circuit, State.record_dropOrder]
  simp only [State.openPending, State.opensPending_dropOrder, test, State.lineConfig_dropOrder]
  split
  · split <;> exact s.modWindow_dropOrder l k _
  · rfl

/-- The settling and the per-boundary work do not read the held order (R2). -/
@[simp] theorem State.worked_dropOrder : (s.dropOrder l).worked l = (s.worked l).dropOrder l := by
  have ended : ((s.dropOrder l).line l).ended = (s.line l).ended := by simp [Line.ended]
  have outcome : ((s.dropOrder l).line l).settledWith = (s.line l).settledWith := by
    rw [State.dropOrder_line]; rfl
  simp only [State.worked, State.settled, ended, outcome, State.settle_dropOrder, State.dropOrder_callList,
    State.perBoundary]
  simp

/-! ### The silence check -/

@[simp] theorem State.bulletinStopped_dropOrder :
    (s.dropOrder l).bulletinStopped l = (s.bulletinStopped l).dropOrder l := by
  have stop : ∀ i, (s.dropOrder l).stopSending l i = (s.stopSending l i).dropOrder l := fun i => by
    simp only [State.stopSending, State.isMarked_dropOrder]
    exact State.ite_dropOrder l (by simp) (by simp [State.abandonSending])
  cases h : s.bulletinOnAir l <;> simp [State.bulletinStopped, h, stop]

@[simp] theorem State.stopCircuit_dropOrder :
    (s.dropOrder l).stopCircuit k = (s.stopCircuit k).dropOrder l := by
  simp only [State.stopCircuit, State.dropOrder_circuit]
  split
  · rfl
  · split <;> simp

@[simp] theorem State.workStopped_dropOrder : (s.dropOrder l).workStopped l = (s.workStopped l).dropOrder l := by
  simp [State.workStopped]

@[simp] theorem State.stopKeying_dropOrder (m : Mode) :
    (s.dropOrder l).stopKeying l m = (s.stopKeying l m).dropOrder l := by
  rw [State.stopKeying_workStopped, State.workStopped_dropOrder]
  exact (s.workStopped l).modLine_dropOrder l l fun _ => rfl

@[simp] theorem State.silenceCheck_dropOrder :
    (s.dropOrder l).silenceCheck l = (s.silenceCheck l).dropOrder l := by
  have rest : (s.dropOrder l).modLine l (fun x => { x with mode := .rest })
      = (s.modLine l fun x => { x with mode := .rest }).dropOrder l := s.modLine_dropOrder l l fun _ => rfl
  simp only [State.silenceCheck, State.dropOrder_mode, State.silencedLine_dropOrder, rest,
    State.stopKeying_dropOrder]
  split
  case h_5 => exact State.ite_dropOrder l rfl rfl
  case h_6 | h_7 => rfl
  all_goals exact State.ite_dropOrder l rfl rfl

theorem State.dropOrder_dropOrder : (s.dropOrder l).dropOrder l = s.dropOrder l := by
  rw [State.dropOrder, State.dropOrder, State.modLine_modLine]

end natural

/-! ### A boundary whose order changes nothing -/

variable {s : State} {l : LineId}

/-- The mode step where the held order changes nothing but its answer is the mode step without it. -/
theorem State.stepped_idle (h : ∀ o, (s.line l).held = some o →
    ((((s.worked l).silenceCheck l).dropOrder l).actOrder l o.order).1 = ((s.worked l).silenceCheck l).dropOrder l) :
    s.stepped l = (((s.worked l).silenceCheck l).dropOrder l).keyingCheck l := by
  have held := (s.worked_kept l).2.2.2
  rw [State.stepped_eq]
  exact State.modeStep_idle fun o ho => h o (held.symm.trans ho)

/-- A boundary whose order changes nothing but its answer leaves the lines and the records as the boundary of the
card without the order (R15). -/
theorem State.boundary_idle (h : ∀ o, (s.line l).held = some o →
    ((((s.worked l).silenceCheck l).dropOrder l).actOrder l o.order).1 = ((s.worked l).silenceCheck l).dropOrder l) :
    (s.boundary l).lines = ((s.dropOrder l).boundary l).lines
      ∧ (s.boundary l).records = ((s.dropOrder l).boundary l).records := by
  have none : ((s.dropOrder l).line l).held = none := by rw [State.dropOrder_line]
  have stepped : s.stepped l = (s.dropOrder l).stepped l := by
    rw [State.stepped_idle h, State.stepped_idle fun o ho => absurd (none.symm.trans ho) nofun, State.worked_dropOrder,
      State.silenceCheck_dropOrder, State.dropOrder_dropOrder]
  have chosen : s.chosen l = (s.dropOrder l).chosen l := by
    rw [State.chosen_eq, State.chosen_eq, stepped]
  rw [State.boundary_eq, State.boundary_eq, chosen]
  exact State.finish_congr _ l _ _ _ _ _

end Sys2Proof.Machine

namespace Sys2Proof.Machine

variable {l : LineId} {m : Mode} {s t u v w : State} {o : HeldOrder}

/-! ## A held order at the boundary -/

/-- The card on which a held order acts: after the silence check, the order taken up (R15). -/
def State.checked (s : State) (l : LineId) : State := ((s.worked l).silenceCheck l).dropOrder l

/-- The mode step of a line that holds an order. -/
theorem State.stepped_order (h : (s.line l).held = some o) :
    s.stepped l = ((s.checked l).actOrder l o.order).1.keyingCheck l := by
  have held : (((s.worked l).silenceCheck l).line l).held = some o := by
    rw [State.silenceCheck_held, (s.worked_kept l).2.2.2, h]
  rw [State.stepped_eq, State.modeStep, State.orderStep, held]
  rfl

/-- The mode step of a line that holds an order, where the order leaves the line out of KEYING. -/
theorem State.stepped_acted (h : (s.line l).held = some o) (acted : ((s.checked l).actOrder l o.order).1 = v)
    (mode : (v.line l).mode ≠ .keying) : s.stepped l = v := by
  rw [State.stepped_order h, acted]
  exact State.keyingCheck_other (.inl mode)

/-- The answer to a held order is queued, with the mode that results (R20). -/
theorem State.boundary_answer (h : (s.line l).held = some o) (room : s.queue.length < 23) :
    (⟨⟨o.source, .lineState l (answeredMode l (s.stepped l) (s.chosen l).1)
        ((s.checked l).actOrder l o.order).2⟩, false⟩ : Queued) ∈ (s.boundary l).queue := by
  have held : (((s.worked l).silenceCheck l).line l).held = some o := by
    rw [State.silenceCheck_held, (s.worked_kept l).2.2.2, h]
  refine (s.boundary_orderAnswer ?_ room).1
  rw [State.modeStep, State.orderStep, held]
  rfl

/-- Out of ACTIVE after the mode step, a LINESTATE carries the mode of the line at the end (R20). -/
theorem State.answeredMode_of_ne (h : ((s.stepped l).line l).mode ≠ .active) :
    answeredMode l (s.stepped l) (s.chosen l).1 = ((s.boundary l).line l).mode := by
  rw [answeredMode, if_neg h, State.boundary_mode]

/-- An order that changes nothing leaves the boundary as it is without it (R15). -/
theorem State.boundary_unchanged (h : (s.line l).held = some o)
    (idle : ((s.checked l).actOrder l o.order).1 = s.checked l) (hp : s.phase = .settled) :
    ∃ u, exec (.boundary l) (s.modLine l fun x => { x with held := none }) = .next u
      ∧ (s.boundary l).lines = u.lines ∧ (s.boundary l).records = u.records := by
  refine ⟨_, exec_boundary (s.dropOrder l) l hp, State.boundary_idle fun o' ho => ?_⟩
  obtain rfl := Option.some.inj (h.symm.trans ho)
  exact idle

/-- The modes the silence check can leave a line in (R14). -/
theorem State.checked_mode (s : State) (l : LineId) :
    ((s.checked l).line l).mode = (s.line l).mode ∨ ((s.checked l).line l).mode = .silent
      ∨ ((s.line l).mode = .silent ∧ ((s.checked l).line l).mode = .rest) := by
  have kept := (s.worked_kept l).1
  rw [State.checked, State.dropOrder_mode, ← kept]
  generalize s.worked l = w
  have stop : ((if w.silencedLine l then w.stopKeying l .silent else w).line l).mode = (w.line l).mode
      ∨ ((if w.silencedLine l then w.stopKeying l .silent else w).line l).mode = .silent := by
    split
    · exact .inr (w.stopKeying_mode l .silent)
    · exact .inl rfl
  unfold State.silenceCheck
  split
  case h_5 silent =>
    split
    · exact .inl rfl
    · exact .inr (.inr ⟨silent, by rw [State.line_modLine_self]⟩)
  case h_6 | h_7 => exact .inl rfl
  all_goals exact stop.imp_right .inl

/-- The silence check takes a line to no mode but SILENT and REST (R14). -/
theorem State.checked_mode_ne (h : (s.line l).mode ≠ m) (silent : m ≠ .silent) (rest : m ≠ .rest) :
    ((s.checked l).line l).mode ≠ m := by
  rcases s.checked_mode l with e | e | ⟨-, e⟩ <;> rw [e]
  · exact h
  · exact silent.symm
  · exact rest.symm

/-- The card on which an order of a line acts whose band is not silenced: the line as the per-boundary work left
it, SILENT taken to REST (R14). -/
theorem State.checked_open (h : s.silencedLine l = false) :
    s.checked l = ((s.worked l).modLine l fun x =>
      { x with mode := if (s.line l).mode = .silent then .rest else x.mode }).dropOrder l := by
  have check := State.silenceCheck_open ((s.worked_silencedLine l).trans h)
  rw [State.checked, check, (s.worked_kept l).1]
  generalize s.worked l = w
  by_cases silent : (s.line l).mode = .silent
  · simp only [silent, if_true]
  · simp only [silent, if_false]
    rw [State.modLine_of_eq (s := w) (l := l) (f := fun x => { x with mode := x.mode }) rfl]

theorem State.checked_traffic (h : s.silencedLine l = false) : SameTraffic l (s.worked l) (s.checked l) := by
  rw [State.checked_open h]
  refine SameTraffic.trans ?_ (.dropOrder _ l)
  exact .modLine _ (fun _ => rfl) (fun _ => rfl) (fun _ => rfl) (fun _ => rfl) (fun _ => rfl) fun _ => rfl

/-- PATTERN ON is allowed on a line at rest or ACTIVE with no circuit, no bulletin on air and no window open
(R18). -/
theorem State.patternAllowed_iff (s : State) (l : LineId) : s.patternAllowed l = true ↔
    ((s.line l).mode = .rest ∨ (s.line l).mode = .active) ∧ (s.line l).circuit = none ∧ s.bulletinOnAir l = none
      ∧ ((s.line l).window.state = .closed ∨ (s.line l).window.state = .pending) := by
  cases hw : (s.line l).window.state <;> simp [State.patternAllowed, hw, and_assoc]

/-- The condition of PATTERN ON as the boundary that takes it up begins (R18, R14). -/
theorem State.patternAllowed_checked (s : State) (l : LineId) : (s.checked l).patternAllowed l = true ↔
    s.silencedLine l = false ∧ ((s.line l).mode = .rest ∨ (s.line l).mode = .active ∨ (s.line l).mode = .silent)
      ∧ ((s.worked l).line l).circuit = none ∧ (s.worked l).bulletinOnAir l = none
      ∧ (((s.worked l).line l).window.state = .closed ∨ ((s.worked l).line l).window.state = .pending) := by
  rw [State.patternAllowed_iff]
  cases hs : s.silencedLine l with
  | true =>
    have silent : ((s.checked l).line l).mode.heldSilent = true := by
      rw [State.checked, State.dropOrder_mode]
      exact State.silenceCheck_silenced ((s.worked_silencedLine l).trans hs)
    refine ⟨fun ⟨mode, _⟩ => ?_, fun h => absurd h.1 nofun⟩
    rcases mode with e | e <;> rw [e] at silent <;> cases silent
  | false =>
    have traffic := State.checked_traffic hs
    have mode : ((s.checked l).line l).mode = if (s.line l).mode = .silent then .rest else (s.line l).mode := by
      rw [State.checked_open hs, State.dropOrder_mode, State.line_modLine_self, (s.worked_kept l).1]
    rw [traffic.circuit, traffic.bulletinOnAir, traffic.window, mode]
    cases (s.line l).mode <;> simp

/-- An order that takes a line to REST: the rest check follows, and the answer is ACCEPTED (R17, R19, R20). -/
theorem State.boundary_rests (held : (s.line l).held = some o) (silenced : s.silencedLine l = false)
    (act : (s.checked l).actOrder l o.order
      = ((s.checked l).modLine l fun x => { x with mode := .rest }, .accepted)) :
    restChecked s (s.boundary l) l (s.recordHanded l).cycle
      ∧ (s.queue.length < 23 →
        (⟨⟨o.source, .lineState l ((s.boundary l).line l).mode .accepted⟩, false⟩ : Queued)
          ∈ (s.boundary l).queue) := by
  have rest : ((((s.checked l).modLine l fun x => { x with mode := .rest })).line l).mode = .rest := by
    rw [State.line_modLine_self]
  have same : SameTraffic l (s.checked l) ((s.checked l).modLine l fun x => { x with mode := .rest }) :=
    .modLine _ (fun _ => rfl) (fun _ => rfl) (fun _ => rfl) (fun _ => rfl) (fun _ => rfl) fun _ => rfl
  have stepped := State.stepped_acted held (v := (s.checked l).modLine l fun x => { x with mode := .rest })
    (by rw [act]) (by rw [rest]; exact nofun)
  rw [← stepped] at rest same
  refine ⟨State.boundary_restChecked rest ((State.checked_traffic silenced).trans same), fun room => ?_⟩
  have answer := State.boundary_answer held room
  rwa [State.answeredMode_of_ne (by rw [rest]; exact nofun), act] at answer

/-! ## PATTERN ON and PATTERN OFF -/

/-- PATTERN ON where it is allowed (R18). -/
theorem State.actOrder_patternOn (h : s.patternAllowed l = true) :
    s.actOrder l .patternOn = (s.modLine l fun x => { x with mode := .pattern, fillerRun := 0 }, .accepted) := by
  simp [State.actOrder, h]

/-- PATTERN ON where it is not allowed (R18). -/
theorem State.actOrder_patternOn_busy (h : s.patternAllowed l = false) : s.actOrder l .patternOn = (s, .busy) := by
  simp [State.actOrder, h]

/-- An allowed PATTERN ON at its boundary: the mode, the cycle, the window and the answer (R18, R20). -/
theorem State.boundary_patternOn {source : Station} (held : (s.line l).held = some ⟨.patternOn, source⟩)
    (allowed : (s.checked l).patternAllowed l = true) :
    ((s.boundary l).line l).mode = .pattern ∧ (s.recordHanded l).cycle = .pattern
      ∧ ((s.boundary l).line l).fillerRun = 0
      ∧ ((s.boundary l).line l).window = ((s.checked l).line l).window
      ∧ (s.queue.length < 23 →
        (⟨⟨source, .lineState l .pattern .accepted⟩, false⟩ : Queued) ∈ (s.boundary l).queue) := by
  have act := State.actOrder_patternOn allowed
  have line : ((s.checked l).modLine l fun x => { x with mode := .pattern, fillerRun := 0 }).line l
      = { (s.checked l).line l with mode := .pattern, fillerRun := 0 } := State.line_modLine_self ..
  have stepped := State.stepped_acted held
    (v := (s.checked l).modLine l fun x => { x with mode := .pattern, fillerRun := 0 }) (by rw [act])
    (by rw [line]; exact nofun)
  rw [← stepped] at line
  have mode : ((s.stepped l).line l).mode = .pattern := by rw [line]
  have chosen : s.chosen l = (s.stepped l, .pattern) := by
    rw [State.chosen_eq]
    exact ((s.stepped l).choice_of_mode l).2.1 mode
  have final : ((s.boundary l).line l).mode = .pattern := by rw [State.boundary_mode, chosen]; exact mode
  refine ⟨final, by rw [State.recordHanded, chosen], ?_, ?_, fun room => ?_⟩
  · rw [State.boundary_line, Line.handed_fillerRun, chosen, line]
  · rw [State.boundary_line, Line.handed_window, chosen, line]
  · have answer := State.boundary_answer held room
    rw [State.answeredMode_of_ne (by rw [mode]; exact nofun), final] at answer
    rwa [act] at answer

/-- The removal of withdrawn parts leaves the window (R84). -/
theorem State.removeAllWithdrawn_window (s : State) (l : LineId) :
    ((s.removeAllWithdrawn l).line l).window = (s.line l).window := by
  have one : ∀ (u : State) i, ((u.removeWithdrawn l i).line l).window = (u.line l).window := fun u i => by
    unfold State.removeWithdrawn
    split
    · rw [State.withdrawPart_line, State.leaveQueues, State.line_modLine_self]
    · rfl
  unfold State.removeAllWithdrawn
  generalize slots = is
  induction is generalizing s with
  | nil => rfl
  | cons i rest ih => exact (ih _).trans (one s i)

/-- The window of a line that handed UNKEYED stands closed through the work before the mode step (R96, R98). -/
theorem State.worked_window (circuit : (s.line l).circuit = none) (window : (s.line l).window.state = .closed)
    (cycle : ∀ r, (s.line l).cycle = some r → r.cycle = .unkeyed) :
    ((s.worked l).line l).window.state = .closed := by
  have cleared : (s.modLine l fun x => { x with outcome := none }).line l = { s.line l with outcome := none } :=
    State.line_modLine_self ..
  have settled : s.settled l = s.modLine l fun x => { x with outcome := none } := by
    unfold State.settled State.settle Line.ended
    cases hc : (s.line l).cycle with
    | none => rfl
    | some r =>
      simp only [Option.map_some, cycle r hc]
      rw [cleared, circuit]
  have held : ((s.settled l).decreaseHolds l (s.line l).callList).line l
      = { s.line l with
          outcome := none, callList := (s.line l).callList.map (Entry.decreased (s.line l).callList) } := by
    rw [settled, State.decreaseHolds, State.line_modLine_self, cleared]
  rw [State.worked, State.perBoundary]
  generalize (s.settled l).decreaseHolds l (s.line l).callList = u at held
  have none : (u.line l).circuit = none := by rw [held, circuit]
  have silence : ∀ e o, u.silenceStep l e o = u := fun e o => by rw [State.silenceStep, none]
  have emptied : u.emptiedCheck l = u := by rw [State.emptiedCheck, none]
  rw [silence, emptied]
  have removed : ((u.removeAllWithdrawn l).line l).window = (s.line l).window := by
    rw [State.removeAllWithdrawn_window, held]
  generalize u.removeAllWithdrawn l = v at removed
  have deferred : ((v.deferralStep l).line l).window = (s.line l).window := by
    rw [State.deferralStep, State.modWindow, State.line_modLine_self]
    simp [removed, window]
  rw [State.openPending, if_neg, deferred, window]
  simp [Line.opensPending, deferred, window]

/-- Settles O14: PATTERN ON and PATTERN OFF by what they do after the silence check; without effect, the boundary
is the one without the order. -/
theorem patternOnKeysRestingLine : Obligations.PatternOnKeysRestingLine := by
  unfold Obligations.PatternOnKeysRestingLine
  refine ⟨fun l source s hp mode held silenced circuit window air cycle => ?_, fun l source s hp held => ?_,
    fun l source s hp held => ?_⟩
  · have noAir : (s.worked l).bulletinOnAir l = none := by
      refine (s.lineWork_worked l).toFrames.bulletinOnAir_none ?_
      rw [SameTraffic.bulletinOnAir (s := s)]
      · exact air
      · exact .modLine s (fun _ => rfl) (fun _ => rfl) (fun _ => rfl) (fun _ => rfl) (fun _ => rfl) fun _ => rfl
    have allowed := (s.patternAllowed_checked l).mpr
      ⟨silenced, .inl mode, State.worked_circuit circuit, noAir, .inl (State.worked_window circuit window cycle)⟩
    obtain ⟨pattern, cycle, fillers, -⟩ := State.boundary_patternOn held allowed
    exact ⟨_, _, exec_boundary s l hp, pattern, fillers, s.boundary_held l, s.boundary_cycle l, cycle⟩
  · have iff := s.patternAllowed_checked l
    dsimp only
    refine ⟨_, _, exec_boundary s l hp, s.boundary_cycle l, s.boundary_held l, fun allowed => ?_, fun denied => ?_⟩
    · obtain ⟨mode, cycle, fillers, window, answer⟩ := State.boundary_patternOn held (iff.mpr allowed)
      exact ⟨mode, cycle, fillers, window.trans (State.checked_traffic allowed.1).window, answer⟩
    · have act := State.actOrder_patternOn_busy (Bool.not_eq_true _ ▸ mt iff.mp denied)
      refine ⟨State.boundary_unchanged held (by rw [act]) hp, fun room => ?_⟩
      have answer := State.boundary_answer held room
      rw [act] at answer
      exact ⟨_, s.answeredMode_boundary l, answer⟩
  · refine ⟨_, _, exec_boundary s l hp, s.boundary_cycle l, s.boundary_held l, fun mode silenced => ?_,
      fun mode => ?_⟩
    · have still : ((s.checked l).line l).mode = .pattern := by
        rw [State.checked_open silenced, State.dropOrder_mode, State.line_modLine_self, mode, (s.worked_kept l).1, mode]
        rfl
      obtain ⟨⟨keys, rests⟩, answer⟩ := State.boundary_rests held silenced (by simp [State.actOrder, still])
      exact ⟨keys, rests, answer⟩
    · have other : ((s.checked l).line l).mode ≠ .pattern := State.checked_mode_ne mode nofun nofun
      exact State.boundary_unchanged held (by simp [State.actOrder, other]) hp

end Sys2Proof.Machine

namespace Sys2Proof.Machine

variable {l : LineId} {m : Mode} {s t u v w : State} {o : HeldOrder} {cur : Option Slot}

/-! ## STOP LINE and START LINE -/

/-- The bulletins on air are at most the ones before, where a line works up to its mode step (R71). -/
theorem Frames.onePart (h : Frames l cur s t) (one : ∀ i ∈ (s.line l).bulletinSlots, ∀ j ∈ (s.line l).bulletinSlots,
    s.partOnAir l i = true → s.partOnAir l j = true → i = j) :
    ∀ i ∈ (t.line l).bulletinSlots, ∀ j ∈ (t.line l).bulletinSlots,
      t.partOnAir l i = true → t.partOnAir l j = true → i = j := by
  have before : ∀ i, t.partOnAir l i = true → s.partOnAir l i = true := fun i hi => by
    rw [State.partOnAir_eq, Option.any_eq_true] at hi ⊢
    obtain ⟨r', hr', air⟩ := hi
    obtain ⟨r, hr, -, airs⟩ := h.records i r' hr'
    exact ⟨r, hr, airs air⟩
  exact fun i hi j hj ai aj => one i (h.slots i hi) j (h.slots j hj) (before i ai) (before j aj)

/-- A line whose work has stopped has no bulletin on air, no notice run, and no circuit but a PARKED one (R21). -/
theorem State.workStopped_still (one : ∀ i ∈ (s.line l).bulletinSlots, ∀ j ∈ (s.line l).bulletinSlots,
    s.partOnAir l i = true → s.partOnAir l j = true → i = j) :
    (s.workStopped l).bulletinOnAir l = none ∧ ((s.workStopped l).line l).window.noticeStep = 0
      ∧ ∀ c, ((s.workStopped l).line l).circuit = some c → c.state = .parked := by
  have off : (s.noticeDropped l).bulletinOnAir l = none :=
    ((PartWork.dropNotice (l := l) (s.bulletinStopped l)).lineWork none).toFrames.bulletinOnAir_none
      (State.bulletinStopped_onAir one)
  obtain ⟨window, -⟩ := s.noticeDropped_fields l
  rw [State.workStopped_eq]
  generalize s.noticeDropped l = d at off window
  refine ⟨(LineWork.stopCircuit d (d.currentIs_currentOf l)).toFrames.bulletinOnAir_none off, ?_, fun c hc => ?_⟩
  · obtain ⟨_, _, _, e⟩ := d.stopCircuit_line l
    rw [e, window]
  · cases hd : (d.line l).circuit with
    | none => rw [State.stopCircuit_none hd, hd] at hc; cases hc
    | some c0 =>
      by_cases linked : c0.state = .linked
      · rw [State.stopCircuit_linked hd linked, State.setCircuit, State.line_modLine_self] at hc
        obtain rfl := Option.some.inj hc
        rfl
      by_cases parked : c0.state = .parked
      · rw [State.stopCircuit_parked hd parked, hd] at hc
        obtain rfl := Option.some.inj hc
        exact parked
      by_cases clearing : c0.state = .clearing
      · rw [State.stopCircuit_clearing hd clearing, State.completeClear_line] at hc
        cases hc
      · obtain ⟨q, e⟩ := d.operationEnded_line l c0
        rw [State.stopCircuit_operation hd (CircuitState.operation_of_ne linked parked clearing), e] at hc
        cases hc

/-- A line with nothing to stop: only the line's mode and counts change as it stops keying. -/
theorem State.workStopped_of_still (air : s.bulletinOnAir l = none) (notice : (s.line l).window.noticeStep = 0)
    (circuit : ∀ c, (s.line l).circuit = some c → c.state = .parked) : s.workStopped l = s := by
  have dropped : { s.line l with window := { (s.line l).window with noticeStep := 0 } } = s.line l := by rw [← notice]
  have window : s.dropNotice l = s := by
    rw [State.dropNotice, State.modWindow, State.modLine_of_eq dropped]
  rw [State.workStopped, State.bulletinStopped_none air, window]
  cases hc : (s.line l).circuit with
  | none => rw [State.stopCircuit_none hc]
  | some c => rw [State.stopCircuit_parked hc (circuit c hc)]

/-- Stopping a line twice, an order taken up between, is stopping it once for the second mode. -/
theorem Stopped.of_twice {a b : Mode} (one : ∀ i ∈ (w.line l).bulletinSlots, ∀ j ∈ (w.line l).bulletinSlots,
      w.partOnAir l i = true → w.partOnAir l j = true → i = j)
    (ended : Ended l (((w.stopKeying l a).dropOrder l).stopKeying l b) t) :
    Stopped l b w (((w.stopKeying l a).dropOrder l).stopKeying l b) t := by
  obtain ⟨air, notice, circuit⟩ := State.workStopped_still one
  have line : ((w.stopKeying l a).dropOrder l).line l
      = { Line.stopped a ((w.workStopped l).line l) with held := none } := by
    rw [State.dropOrder_line, State.stopKeying_workStopped, State.line_modLine_self]
  have same : SameTraffic l (w.workStopped l) ((w.stopKeying l a).dropOrder l) :=
    SameTraffic.trans (.modLine (f := Line.stopped a) _ (fun _ => rfl) (fun _ => rfl) (fun _ => rfl) (fun _ => rfl)
      (fun _ => rfl) fun _ => rfl) (.dropOrder _ l)
  have still : ((w.stopKeying l a).dropOrder l).workStopped l = (w.stopKeying l a).dropOrder l :=
    State.workStopped_of_still (same.bulletinOnAir.trans air) (by rw [same.window]; exact notice)
      (by rw [same.circuit]; exact circuit)
  have config : ((w.stopKeying l a).dropOrder l).config = w.config :=
    (State.fixed_fields (w.fixed_stopKeying l a)).1.2.2.2.2.2.2
  have reports : ((w.stopKeying l a).dropOrder l).reports = (w.workStopped l).reports := by
    rw [State.reports_dropOrder, State.stopKeying_workStopped]
    rfl
  generalize (w.stopKeying l a).dropOrder l = v at *
  rw [State.stopKeying_workStopped, still] at ended ⊢
  refine ⟨ended, ⟨none, ?_⟩, same.records, reports, config⟩
  rw [State.line_modLine_self, line]
  rfl

/-- What a stop leaves of the work of a line does not depend on the line's mode and held order before. -/
theorem keyingStopped_modLine {f : Line → Line} (h : keyingStopped (w.modLine l f) t l m)
    (same : ∀ x : Line, ∃ mode held, f x = { x with mode := mode, held := held }) : keyingStopped w t l m := by
  obtain ⟨mode, held, e⟩ := same (w.line l)
  have line : (w.modLine l f).line l = { w.line l with mode := mode, held := held } := by
    rw [State.line_modLine_self, e]
  have air : (w.modLine l f).bulletinOnAir l = w.bulletinOnAir l := by
    refine SameTraffic.bulletinOnAir ⟨rfl, ?_, ?_, ?_, ?_, ?_, ?_⟩ <;> rw [line]
  have entry : ∀ ship, ((w.modLine l f).line l).entry? ship = (w.line l).entry? ship := fun ship => by
    rw [line]; rfl
  have cleared : ∀ c, Machine.clearCompleted (w.modLine l f) t l c → Machine.clearCompleted w t l c := fun c hc => by
    unfold Machine.clearCompleted at hc ⊢
    rw [line] at hc
    exact hc
  unfold keyingStopped at h ⊢
  rw [line, air] at h
  obtain ⟨control, none, circuits, rest⟩ := h
  refine ⟨control, none, fun c hc => ?_, rest⟩
  obtain ⟨linked, parked, gone, operation, kept, clearing, message⟩ := circuits c hc
  exact ⟨linked, parked, gone, operation, kept, fun hs => cleared c (clearing hs), message⟩

/-- STOP LINE on a line that keys, rests or is SILENT (R16). -/
theorem State.actOrder_stop (disabled : (s.line l).mode ≠ .disabled) (stopped : (s.line l).mode ≠ .stopped) :
    s.actOrder l .stop = (s.stopKeying l .stopped, .accepted) := by
  cases hm : (s.line l).mode <;> simp [hm] at disabled stopped <;> simp [State.actOrder, hm]

theorem State.actOrder_stop_stopped (h : (s.line l).mode = .stopped) : s.actOrder l .stop = (s, .accepted) := by
  simp [State.actOrder, h]

/-- The silence check leaves a STOPPED line, and a SILENT one of a silenced band (R14). -/
theorem State.checked_still (h : (s.line l).mode = .stopped ∨ ((s.line l).mode = .silent ∧ s.silencedLine l = true)) :
    s.checked l = (s.worked l).dropOrder l := by
  have mode := (s.worked_kept l).1
  have silenced := s.worked_silencedLine l
  rw [State.checked]
  generalize s.worked l = w at mode silenced
  rcases h with h | ⟨h, hs⟩
  · simp [State.silenceCheck, mode, h]
  · simp [State.silenceCheck, mode, h, silenced, hs]

theorem State.checked_stopped (h : (s.line l).mode = .stopped) : ((s.checked l).line l).mode = .stopped := by
  rw [State.checked_still (.inl h), State.dropOrder_mode, (s.worked_kept l).1, h]

section stop

variable {source : Station} (held : (s.line l).held = some ⟨.stop, source⟩) (disabled : (s.line l).mode ≠ .disabled)
include held disabled

/-- A held STOP LINE as it acts on a line that is not STOPPED (R16). -/
theorem State.stepped_stop (stopped : (s.line l).mode ≠ .stopped) :
    s.stepped l = (s.checked l).stopKeying l .stopped := by
  have acts := State.actOrder_stop (State.checked_mode_ne disabled nofun nofun)
    (State.checked_mode_ne stopped nofun nofun)
  exact State.stepped_acted held (by rw [acts])
    (by rw [State.stopKeying_mode]; exact nofun)

/-- After a held STOP LINE the line is STOPPED, and the answer is ACCEPTED (R16). -/
theorem State.stepped_stop_mode : ((s.stepped l).line l).mode = .stopped
    ∧ ((s.checked l).actOrder l .stop).2 = .accepted := by
  refine ⟨?_, rfl⟩
  by_cases stopped : (s.line l).mode = .stopped
  · have still := State.checked_stopped stopped
    rw [State.stepped_acted held (by rw [State.actOrder_stop_stopped still]) (by rw [still]; exact nofun), still]
  · rw [State.stepped_stop held disabled stopped, State.stopKeying_mode]

/-- A boundary that takes up STOP LINE hands UNKEYED to a STOPPED line (R16). -/
theorem State.chosen_stop : s.chosen l = (s.stepped l, .unkeyed) := by
  rw [State.chosen_eq, State.choice_heldSilent]
  rw [(State.stepped_stop_mode held disabled).1]
  rfl

theorem State.boundary_stop : ((s.boundary l).line l).mode = .stopped ∧ (s.recordHanded l).cycle = .unkeyed
    ∧ (s.queue.length < 23 →
      (⟨⟨source, .lineState l .stopped .accepted⟩, false⟩ : Queued) ∈ (s.boundary l).queue) := by
  have mode := (State.stepped_stop_mode held disabled).1
  have chosen := State.chosen_stop held disabled
  have final : ((s.boundary l).line l).mode = .stopped := by rw [State.boundary_mode, chosen]; exact mode
  refine ⟨final, by rw [State.recordHanded, chosen], fun room => ?_⟩
  have answer := State.boundary_answer held room
  rwa [State.answeredMode_of_ne (by rw [mode]; exact nofun), final] at answer

/-- What STOP LINE leaves of the work of its line (R16, R21). -/
theorem State.boundary_stop_work (stopped : (s.line l).mode ≠ .stopped) (one : s.onePartOnAir) :
    keyingStopped (s.worked l) (s.boundary l) l .stopped := by
  have ended := State.boundary_ended (s := s) (l := l) (by
    rw [(State.stepped_stop_mode held disabled).1]; rfl)
  rw [State.stepped_stop held disabled stopped] at ended
  have single : ∀ i ∈ ((s.worked l).line l).bulletinSlots, ∀ j ∈ ((s.worked l).line l).bulletinSlots,
      (s.worked l).partOnAir l i = true → (s.worked l).partOnAir l j = true → i = j := by
    refine (s.lineWork_worked l).toFrames.onePart ?_
    rw [State.line_modLine_self]
    exact one l
  have taken : ∀ w : State, keyingStopped (w.dropOrder l) (s.boundary l) l .stopped →
      keyingStopped w (s.boundary l) l .stopped := fun w h =>
    keyingStopped_modLine h fun x => ⟨x.mode, none, rfl⟩
  cases silenced : s.silencedLine l with
  | false =>
    have after := (Stopped.of_stopKeying ended).keyingStopped
    rw [State.checked_open silenced] at after
    exact keyingStopped_modLine (taken _ after) fun x => ⟨_, x.held, rfl⟩
  | true =>
    by_cases silent : (s.line l).mode = .silent
    · have after := (Stopped.of_stopKeying ended).keyingStopped
      rw [State.checked_still (.inr ⟨silent, silenced⟩)] at after
      exact taken _ after
    · have keys : (s.worked l).silenceCheck l = (s.worked l).stopKeying l .silent := by
        refine State.silenceCheck_stops ((s.worked_silencedLine l).trans silenced) ?_
        rw [(s.worked_kept l).1]
        cases hm : (s.line l).mode <;> simp [hm] at disabled stopped silent ⊢
      rw [State.checked, keys] at ended
      exact (Stopped.of_twice single ended).keyingStopped

end stop

/-- START LINE on a STOPPED line (R17). -/
theorem State.actOrder_start (h : (s.line l).mode = .stopped) : s.actOrder l .start
    = (s.modLine l fun x => { x with mode := if s.silencedLine l then .silent else .rest }, .accepted) := by
  simp [State.actOrder, h]

theorem State.checked_silencedLine (s : State) (l : LineId) : (s.checked l).silencedLine l = s.silencedLine l := by
  rw [State.checked, State.silencedLine_dropOrder, State.silencedLine_congr ((s.worked l).fixed_silenceCheck l),
    s.worked_silencedLine]

/-- START LINE takes a STOPPED line of a silenced band to SILENT (R17). -/
theorem State.boundary_start_silenced {source : Station} (held : (s.line l).held = some ⟨.start, source⟩)
    (mode : (s.line l).mode = .stopped) (silenced : s.silencedLine l = true) :
    ((s.boundary l).line l).mode = .silent ∧ (s.recordHanded l).cycle = .unkeyed
      ∧ (s.queue.length < 23 →
        (⟨⟨source, .lineState l .silent .accepted⟩, false⟩ : Queued) ∈ (s.boundary l).queue) := by
  have act := State.actOrder_start (State.checked_stopped mode)
  rw [s.checked_silencedLine, silenced] at act
  have silent : ((s.stepped l).line l).mode = .silent := by
    rw [State.stepped_acted held (v := (s.checked l).modLine l fun x => { x with mode := .silent }) (by rw [act]; rfl)
      (by rw [State.line_modLine_self]; exact nofun), State.line_modLine_self]
  have chosen : s.chosen l = (s.stepped l, .unkeyed) := by
    rw [State.chosen_eq, State.choice_heldSilent (by rw [silent]; rfl)]
  have final : ((s.boundary l).line l).mode = .silent := by rw [State.boundary_mode, chosen]; exact silent
  refine ⟨final, by rw [State.recordHanded, chosen], fun room => ?_⟩
  have answer := State.boundary_answer held room
  rwa [State.answeredMode_of_ne (by rw [silent]; exact nofun), final, act] at answer

/-- Settles O13: by the mode that the silence check leaves; a line silenced at the same boundary is stopped twice,
the second time with nothing left to stop. -/
theorem stopLineStopsAtBoundary : Obligations.StopLineStopsAtBoundary := by
  unfold Obligations.StopLineStopsAtBoundary
  refine ⟨fun l source s hp disabled stopped held => ?_, fun l source s hp held disabled one => ?_,
    fun l source s hp held => ?_⟩
  · obtain ⟨mode, cycle, -⟩ := State.boundary_stop held disabled
    have line : (s.stepped l).line l = Line.stopped .stopped (((s.checked l).workStopped l).line l) := by
      rw [State.stepped_stop held disabled stopped, State.stopKeying_workStopped, State.line_modLine_self]
    refine ⟨_, _, exec_boundary s l hp, mode, s.boundary_held l, s.boundary_cycle l, cycle, ?_⟩
    rw [State.boundary_line, Line.handed_keyupCount, Line.handed_fillerRun, Line.handed_arbiter,
      State.chosen_stop held disabled, line]
    exact ⟨rfl, rfl, rfl⟩
  · obtain ⟨mode, cycle, answer⟩ := State.boundary_stop held disabled
    exact ⟨_, _, exec_boundary s l hp, mode, s.boundary_cycle l, cycle, s.boundary_held l,
      fun stopped => State.boundary_stop_work held disabled stopped one, answer⟩
  · refine ⟨_, _, exec_boundary s l hp, s.boundary_cycle l, s.boundary_held l, fun mode => ?_, fun mode => ?_⟩
    · cases silenced : s.silencedLine l with
      | true =>
        obtain ⟨silent, cycle, answer⟩ := State.boundary_start_silenced held mode silenced
        exact ⟨fun _ => ⟨silent, cycle⟩, nofun, nofun, fun room => silent ▸ answer room⟩
      | false =>
        have act := State.actOrder_start (State.checked_stopped mode)
        rw [s.checked_silencedLine, silenced] at act
        obtain ⟨⟨keys, rests⟩, answer⟩ := State.boundary_rests held silenced act
        exact ⟨nofun, fun _ => keys, fun _ => rests, answer⟩
    · have other : ((s.checked l).line l).mode ≠ .stopped := State.checked_mode_ne mode nofun nofun
      exact State.boundary_unchanged held (by simp [State.actOrder, other]) hp

end Sys2Proof.Machine

namespace Sys2Proof.Machine

variable {l : LineId} {s t u : State}

/-! ## The laws of entries and messages, over the fields they speak of -/

/-- The states of a record that is a message of an entry (R133). -/
def RecordState.works : RecordState → Bool
  | .loading | .ready | .onAir => true
  | .claiming | .reporting => false

/-- The states of a circuit that can have a current message (R36, R42). -/
def CircuitState.carries : CircuitState → Bool
  | .linked | .parked | .rephasing => true
  | .calling | .aligning | .identifying | .clearing => false

theorem CircuitState.carries_iff {x : CircuitState} :
    x.carries = true ↔ x = .linked ∨ x = .parked ∨ x = .rephasing := by
  cases x <;> simp [CircuitState.carries]

theorem RecordState.works_iff {x : RecordState} :
    x.works = true ↔ x = .loading ∨ x = .ready ∨ x = .onAir := by
  cases x <;> simp [RecordState.works]

/-- The line and the ship that a telex record names (R133). -/
def Record.post (r : Record) : Option (Option LineId × Nat) := r.telex?.map fun x => (x.line, x.ship)

theorem Record.post_eq_some {r : Record} {line : Option LineId} {ship : Nat} :
    r.post = some (line, ship) ↔ ∃ x, r.body = .telex x ∧ x.line = line ∧ x.ship = ship := by
  unfold Record.post Record.telex?
  cases r.body <;> simp

theorem Record.post_telex {r : Record} {x : Telex} (h : r.body = .telex x) : r.post = some (x.line, x.ship) :=
  Record.post_eq_some.mpr ⟨x, h, rfl, rfl⟩

theorem Record.post_bulletin {r : Record} {b : Bulletin} (h : r.body = .bulletin b) : r.post = none := by
  simp [Record.post, Record.telex?, h]

/-- The entries of a line by ship and messages, in call-list order (R25). -/
def Line.cores (x : Line) : List (Nat × List Slot) := x.callList.map fun e => (e.ship, e.messages)

theorem Line.mem_cores {x : Line} {p : Nat × List Slot} :
    p ∈ x.cores ↔ ∃ e ∈ x.callList, e.ship = p.1 ∧ e.messages = p.2 := by
  simp only [Line.cores, List.mem_map, Prod.ext_iff]

theorem Line.cores_ships (x : Line) : x.cores.map Prod.fst = x.callList.map (·.ship) := by
  simp [Line.cores, Function.comp_def]

/-- The message in a slot is one of the entry of a ship on a line (R133). -/
def State.placed (s : State) (l : LineId) (ship : Nat) (i : Slot) : Prop :=
  ∃ r, s.record i = some r ∧ r.post = some (some l, ship) ∧ r.state.works = true

/-- A slot holds the CLAIMING record of a claim window (R156). -/
def State.claimHeld (s : State) (key : Key) (i : Slot) : Prop :=
  ∃ r ship, s.record i = some r ∧ r.key = key ∧ r.state = .claiming ∧ r.post = some (none, ship)

/-- The current message of a line's circuit is an ON-AIR message of the circuit's entry. -/
def State.currentPlaced (s : State) (l : LineId) : Prop :=
  ∀ c i, (s.line l).circuit = some c → c.current = some i →
    s.isOnAir i = true ∧ c.state.carries = true ∧ ∃ ms, (c.ship, ms) ∈ (s.line l).cores ∧ i ∈ ms

theorem State.messagesPlaced_iff : s.messagesPlaced ↔
    (∀ l, ∀ p ∈ (s.line l).cores, p.2.Nodup ∧ ∀ i ∈ p.2, s.placed l p.1 i)
      ∧ (∀ l, s.currentPlaced l) ∧ ∀ w ∈ s.claims, s.claimHeld w.key w.slot := by
  have placed : ∀ l ship i, s.placed l ship i ↔ ∃ r x, s.record i = some r ∧ r.body = .telex x ∧ x.line = some l
      ∧ x.ship = ship ∧ (r.state = .loading ∨ r.state = .ready ∨ r.state = .onAir) := fun l ship i => by
    simp only [State.placed, Record.post_eq_some, RecordState.works_iff]
    constructor
    · rintro ⟨r, hr, ⟨x, hb, hl, hs⟩, state⟩
      exact ⟨r, x, hr, hb, hl, hs, state⟩
    · rintro ⟨r, x, hr, hb, hl, hs, state⟩
      exact ⟨r, hr, ⟨x, hb, hl, hs⟩, state⟩
  have held : ∀ w : ClaimWindow, s.claimHeld w.key w.slot ↔ ∃ r x, s.record w.slot = some r ∧ r.key = w.key
      ∧ r.state = .claiming ∧ r.body = .telex x ∧ x.line = none := fun w => by
    simp only [State.claimHeld, Record.post_eq_some]
    constructor
    · rintro ⟨r, ship, hr, hk, hc, x, hb, hl, -⟩
      exact ⟨r, x, hr, hk, hc, hb, hl⟩
    · rintro ⟨r, x, hr, hk, hc, hb, hl⟩
      exact ⟨r, x.ship, hr, hk, hc, x, hb, hl, rfl⟩
  simp only [State.messagesPlaced, State.currentPlaced, placed, held, CircuitState.carries_iff, Line.cores,
    List.mem_map, Prod.mk.injEq]
  refine and_congr (forall_congr' fun l => ⟨?_, ?_⟩) (and_congr ?_ Iff.rfl)
  · rintro h p ⟨e, he, rfl⟩
    exact h e he
  · exact fun h e he => h _ ⟨e, he, rfl⟩
  refine forall_congr' fun l => forall_congr' fun c => forall_congr' fun i => imp_congr Iff.rfl
    (imp_congr Iff.rfl (and_congr Iff.rfl (and_congr Iff.rfl ⟨?_, ?_⟩)))
  · rintro ⟨e, he, ship, hi⟩
    exact ⟨e.messages, ⟨e, he, ship, rfl⟩, hi⟩
  · rintro ⟨ms, ⟨e, he, ship, rfl⟩, hi⟩
    exact ⟨e, he, ship, hi⟩

/-- Every circuit's ship has its entry on the circuit's own line (R25). -/
def State.manned (s : State) (l : LineId) : Prop :=
  ∀ c, (s.line l).circuit = some c → ∃ ms, (c.ship, ms) ∈ (s.line l).cores

theorem State.shipsHeld_length (s : State) : s.shipsHeld.length = s.entriesUsed := by
  simp [State.shipsHeld, State.entriesUsed, lineIds]

theorem State.shipsOnce_iff : s.shipsOnce ↔
    s.shipsHeld.Nodup ∧ (∀ l, s.manned l) ∧ s.shipsHeld.length ≤ Config.entryPool := by
  rw [State.shipsHeld_length]
  refine and_congr Iff.rfl (and_congr (forall_congr' fun l => forall_congr' fun c => imp_congr Iff.rfl ⟨?_, ?_⟩) Iff.rfl)
  · rintro ⟨e, he, ship⟩
    exact ⟨e.messages, Line.mem_cores.mpr ⟨e, he, ship, rfl⟩⟩
  · rintro ⟨ms, h⟩
    obtain ⟨e, he, ship, -⟩ := Line.mem_cores.mp h
    exact ⟨e, he, ship⟩

/-! ## Easing: work that takes on no new duty -/

/-- What work leaves of a record's place: its telex goes on under its key, or starts, and no part comes on
air. `gone` holds the slots whose messages leave their entries. -/
structure RecordsKept (gone : List Slot) (s t : State) : Prop where
  telex : ∀ i r p, i ∉ gone → s.record i = some r → r.post = some p → r.state ≠ .reporting →
    ∃ r', t.record i = some r' ∧ r'.post = some p ∧ r'.key = r.key
      ∧ (r'.state = r.state ∨ (r.state.works = true ∧ r.state ≠ .onAir ∧ r'.state.works = true))
  air : ∀ i r' m, t.record i = some r' → r'.airs m = true → ∃ r, s.record i = some r ∧ r.airs m = true

/-- What work leaves of a line: no new ship, message or circuit, the entry of a circuit's ship with its messages
but those in `gone`, and no new slot in the bulletin queues. -/
structure Line.Eases (gone : List Slot) (x y : Line) : Prop where
  ships : (y.cores.map Prod.fst).Subperm (x.cores.map Prod.fst)
  entries : ∀ p' ∈ y.cores, ∃ p ∈ x.cores, p'.1 = p.1 ∧ p'.2.Sublist p.2
  circuit : ∀ c', y.circuit = some c' → ∃ c, x.circuit = some c ∧ c'.ship = c.ship
    ∧ (∀ j, c'.current = some j → c.current = some j ∧ (c.state.carries = true → c'.state.carries = true))
    ∧ ∀ ms, (c.ship, ms) ∈ x.cores → ∃ ms', (c.ship, ms') ∈ y.cores ∧ ∀ j ∈ ms, j ∉ gone → j ∈ ms'
  slots : ∀ j ∈ y.bulletinSlots, j ∈ x.bulletinSlots

/-- Work that takes on no new duty under the laws of R25, R71 and R133: what it leaves of the lines, the records
and the claim windows. -/
structure Eases (gone : List Slot) (s t : State) : Prop where
  lines : ∀ l, (s.line l).Eases gone (t.line l)
  records : RecordsKept gone s t
  claims : ∀ w' ∈ t.claims, ∃ w ∈ s.claims, w'.key = w.key ∧ w'.slot = w.slot

theorem RecordsKept.refl (s : State) : RecordsKept [] s s :=
  ⟨fun _ r _ _ hr hp _ => ⟨r, hr, hp, rfl, .inl rfl⟩, fun _ r _ hr ha => ⟨r, hr, ha⟩⟩

theorem RecordsKept.trans {g h : List Slot} (h1 : RecordsKept g s t) (h2 : RecordsKept h t u) :
    RecordsKept (g ++ h) s u where
  telex i r p hi hr hp hs := by
    obtain ⟨hg, hh⟩ := not_or.mp (mt List.mem_append.mpr hi)
    obtain ⟨r1, hr1, hp1, hk1, hs1⟩ := h1.telex i r p hg hr hp hs
    have live : r1.state ≠ .reporting := by
      rcases hs1 with e | ⟨-, -, e⟩
      · rwa [e]
      · intro c; rw [c] at e; cases e
    obtain ⟨r2, hr2, hp2, hk2, hs2⟩ := h2.telex i r1 p hh hr1 hp1 live
    refine ⟨r2, hr2, hp2, hk2.trans hk1, ?_⟩
    rcases hs1 with e1 | ⟨w, n, w1⟩
    · rwa [e1] at hs2
    · refine .inr ⟨w, n, ?_⟩
      rcases hs2 with e2 | ⟨-, -, w2⟩
      · rwa [e2]
      · exact w2
  air i r' m hr ha := by
    obtain ⟨r1, hr1, ha1⟩ := h2.air i r' m hr ha
    exact h1.air i r1 m hr1 ha1

theorem RecordsKept.of_records (h : t.records = s.records) : RecordsKept [] s t :=
  ⟨fun i r _ _ hr hp _ => ⟨r, (State.record_congr h i).trans hr, hp, rfl, .inl rfl⟩,
    fun i r _ hr ha => ⟨r, (State.record_congr h i).symm.trans hr, ha⟩⟩

theorem Line.Eases.refl (x : Line) : x.Eases [] x where
  ships := List.Subperm.refl _
  entries p hp := ⟨p, hp, rfl, List.Sublist.refl _⟩
  circuit c hc := ⟨c, hc, rfl, fun _ hj => ⟨hj, id⟩, fun ms hm => ⟨ms, hm, fun _ hj _ => hj⟩⟩
  slots _ := id

theorem Line.Eases.trans {g h : List Slot} {x y z : Line} (h1 : x.Eases g y) (h2 : y.Eases h z) :
    x.Eases (g ++ h) z where
  ships := h2.ships.trans h1.ships
  entries p hp := by
    obtain ⟨p1, hp1, e1, s1⟩ := h2.entries p hp
    obtain ⟨p2, hp2, e2, s2⟩ := h1.entries p1 hp1
    exact ⟨p2, hp2, e1.trans e2, s1.trans s2⟩
  circuit c hc := by
    obtain ⟨c1, hc1, ship1, cur1, ent1⟩ := h2.circuit c hc
    obtain ⟨c2, hc2, ship2, cur2, ent2⟩ := h1.circuit c1 hc1
    refine ⟨c2, hc2, ship1.trans ship2, fun j hj => ?_, fun ms hm => ?_⟩
    · obtain ⟨hj1, k1⟩ := cur1 j hj
      obtain ⟨hj2, k2⟩ := cur2 j hj1
      exact ⟨hj2, k1 ∘ k2⟩
    · obtain ⟨ms1, hm1, k1⟩ := ent2 ms hm
      rw [← ship2] at hm1 ⊢
      obtain ⟨ms2, hm2, k2⟩ := ent1 ms1 hm1
      refine ⟨ms2, hm2, fun j hj hn => ?_⟩
      obtain ⟨hg, hh⟩ := not_or.mp (mt List.mem_append.mpr hn)
      exact k2 j (k1 j hj hg) hh
  slots j hj := h1.slots j (h2.slots j hj)

/-- A change of a line that keeps its circuit and entries, and puts no slot into its queues. -/
theorem Line.Eases.of_cores {x y : Line} (circuit : y.circuit = x.circuit) (cores : y.cores = x.cores)
    (slots : ∀ j ∈ y.bulletinSlots, j ∈ x.bulletinSlots) : x.Eases [] y where
  ships := by rw [cores]
  entries p hp := ⟨p, cores ▸ hp, rfl, List.Sublist.refl _⟩
  circuit c hc := ⟨c, circuit ▸ hc, rfl, fun _ hj => ⟨hj, id⟩, fun ms hm => ⟨ms, cores ▸ hm, fun _ hj _ => hj⟩⟩
  slots := slots

theorem subperm_map {α β : Type} (f : α → β) {a b : List α} (h : a.Subperm b) : (a.map f).Subperm (b.map f) := by
  obtain ⟨kept, perm, sub⟩ := h
  exact ⟨kept.map f, perm.map f, sub.map f⟩

/-- A line left without a circuit may lose entries. -/
theorem Line.Eases.of_idle {x y : Line} (circuit : y.circuit = none)
    (cores : y.cores.Subperm x.cores) (slots : y.bulletinSlots = x.bulletinSlots) : x.Eases [] y where
  ships := subperm_map Prod.fst cores
  entries p hp := ⟨p, cores.subset hp, rfl, List.Sublist.refl _⟩
  circuit c hc := by rw [circuit] at hc; cases hc
  slots := by rw [slots]; exact fun _ => id

/-- Easing asks less where more slots have left. -/
theorem Line.Eases.weaken {x y : Line} (g : List Slot) (h : x.Eases [] y) : x.Eases g y where
  ships := h.ships
  entries := h.entries
  circuit c hc := by
    obtain ⟨c', hc', ship, current, kept⟩ := h.circuit c hc
    refine ⟨c', hc', ship, current, fun ms hm => ?_⟩
    obtain ⟨ms', hm', still⟩ := kept ms hm
    exact ⟨ms', hm', fun j hj _ => still j hj List.not_mem_nil⟩
  slots := h.slots

theorem Eases.refl (s : State) : Eases [] s s :=
  ⟨fun _ => .refl _, .refl s, fun w hw => ⟨w, hw, rfl, rfl⟩⟩

theorem Eases.trans {g h : List Slot} (h1 : Eases g s t) (h2 : Eases h t u) : Eases (g ++ h) s u where
  lines l := (h1.lines l).trans (h2.lines l)
  records := h1.records.trans h2.records
  claims w hw := by
    obtain ⟨w1, hw1, k1, e1⟩ := h2.claims w hw
    obtain ⟨w2, hw2, k2, e2⟩ := h1.claims w1 hw1
    exact ⟨w2, hw2, k1.trans k2, e1.trans e2⟩

/-- Easing work in a row: nothing has left an entry. -/
theorem Eases.then (h1 : Eases [] s t) (h2 : Eases [] t u) : Eases [] s u := h1.trans h2

theorem Eases.of_lines {g : List Slot} (hl : t.lines = s.lines) (hr : RecordsKept g s t)
    (hc : t.claims = s.claims) : Eases g s t where
  lines l := by rw [State.line_congr hl]; exact (Line.Eases.refl _).weaken g
  records := hr
  claims w hw := ⟨w, hc ▸ hw, rfl, rfl⟩

/-- A change of fields that are neither lines nor records nor claim windows. -/
theorem Eases.of_eq (hl : t.lines = s.lines) (hr : t.records = s.records) (hc : t.claims = s.claims) :
    Eases [] s t :=
  .of_lines hl (.of_records hr) hc

theorem Eases.modLine (s : State) {f : Line → Line} (h : (s.line l).Eases [] (f (s.line l))) :
    Eases [] s (s.modLine l f) where
  lines m := by
    by_cases hm : m = l
    · subst hm; rw [State.line_modLine_self]; exact h
    · rw [State.line_modLine_ne _ _ hm]; exact .refl _
  records := .of_records rfl
  claims w hw := ⟨w, hw, rfl, rfl⟩

/-- A change of a line apart from its circuit, its entries and its bulletin queues. -/
theorem Eases.modFields (s : State) {f : Line → Line} (circuit : ∀ x, (f x).circuit = x.circuit)
    (calls : ∀ x, (f x).callList = x.callList) (slots : ∀ x, ∀ j ∈ (f x).bulletinSlots, j ∈ x.bulletinSlots) :
    Eases [] s (s.modLine l f) :=
  .modLine s (.of_cores (circuit _) (by rw [Line.cores, calls]; rfl) (slots _))

theorem Eases.modWindow (s : State) (f : Window → Window) : Eases [] s (s.modWindow l f) :=
  .modFields s (fun _ => rfl) (fun _ => rfl) fun _ _ => id

theorem Eases.modArbiter (s : State) (f : Arbiter → Arbiter) : Eases [] s (s.modArbiter l f) :=
  .modFields s (fun _ => rfl) (fun _ => rfl) fun _ _ => id

theorem Eases.modCounters (s : State) (f : LineCounters → LineCounters) : Eases [] s (s.modCounters l f) :=
  .modFields s (fun _ => rfl) (fun _ => rfl) fun _ _ => id

theorem Eases.dropCircuit (s : State) : Eases [] s (s.setCircuit l none) :=
  .modLine s (.of_idle rfl (List.Subperm.refl _) rfl)

/-- A circuit goes on with its ship, and with its current message or none. -/
theorem Eases.setCircuit (s : State) {c c' : Circuit} (h : (s.line l).circuit = some c) (ship : c'.ship = c.ship)
    (current : ∀ j, c'.current = some j →
      c.current = some j ∧ (c.state.carries = true → c'.state.carries = true)) :
    Eases [] s (s.setCircuit l (some c')) := by
  refine .modLine s ⟨List.Subperm.refl _, fun p hp => ⟨p, hp, rfl, List.Sublist.refl _⟩, fun d hd => ?_, fun _ => id⟩
  cases hd
  exact ⟨c, h, ship, current, fun ms hm => ⟨ms, hm, fun _ hj _ => hj⟩⟩

/-- The work on a line that keeps its circuit and its call list, where it keeps the records. -/
theorem PartWork.eases (h : PartWork l s t) (hr : RecordsKept [] s t) (hf : t.fixed = s.fixed) : Eases [] s t where
  lines m := by
    by_cases hm : m = l
    · subst hm
      exact .of_cores h.circuit (by rw [Line.cores, h.calls]; rfl) h.slots
    · rw [h.others m hm]; exact .refl _
  records := hr
  claims w hw := ⟨w, (State.fixed_fields hf).2.2.2.2.2.2.2 ▸ hw, rfl, rfl⟩

/-! ## What easing work keeps -/

/-- What a step keeps of the three laws of R25, R133 and R71. -/
structure Lawful (s t : State) : Prop where
  ships : s.shipsOnce → t.shipsOnce
  messages : s.shipsOnce → s.messagesPlaced → t.messagesPlaced
  air : s.onePartOnAir → t.onePartOnAir

theorem Lawful.refl (s : State) : Lawful s s := ⟨id, fun _ => id, id⟩

theorem Lawful.trans (h1 : Lawful s t) (h2 : Lawful t u) : Lawful s u :=
  ⟨h2.ships ∘ h1.ships, fun hs hm => h2.messages (h1.ships hs) (h1.messages hs hm), h2.air ∘ h1.air⟩

/-- What a step keeps of the three laws, the law of messages under a condition. -/
structure LawfulWhen (p : Prop) (s t : State) : Prop where
  ships : s.shipsOnce → t.shipsOnce
  messages : s.shipsOnce → s.messagesPlaced → p → t.messagesPlaced
  air : s.onePartOnAir → t.onePartOnAir

theorem Lawful.when {p : Prop} (h1 : Lawful s t) (h2 : LawfulWhen p t u) (hp : s.messagesPlaced → p) : Lawful s u :=
  ⟨h2.ships ∘ h1.ships, fun hs hm => h2.messages (h1.ships hs) (h1.messages hs hm) (hp hm), h2.air ∘ h1.air⟩

theorem State.shipsHeld_eq (s : State) : s.shipsHeld = (s.line 0).cores.map Prod.fst
    ++ ((s.line 1).cores.map Prod.fst ++ ((s.line 2).cores.map Prod.fst ++ (s.line 3).cores.map Prod.fst)) := by
  simp [State.shipsHeld, lineIds, Line.cores_ships]

theorem Eases.manned {g : List Slot} (h : Eases g s t) (hs : s.manned l) : t.manned l := by
  intro c' hc'
  obtain ⟨c, hc, ship, -, kept⟩ := (h.lines l).circuit c' hc'
  obtain ⟨ms, hm⟩ := hs c hc
  obtain ⟨ms', hm', -⟩ := kept ms hm
  exact ⟨ms', ship ▸ hm'⟩

theorem Eases.shipsHeld {g : List Slot} (h : Eases g s t) : t.shipsHeld.Subperm s.shipsHeld := by
  rw [State.shipsHeld_eq, State.shipsHeld_eq]
  exact (h.lines 0).ships.append ((h.lines 1).ships.append ((h.lines 2).ships.append (h.lines 3).ships))

theorem nodup_of_subperm {α : Type} {a b : List α} (h : a.Subperm b) (hb : b.Nodup) : a.Nodup := by
  obtain ⟨c, perm, sub⟩ := h
  exact perm.nodup_iff.mp (hb.sublist sub)

/-- The law of R25 where the entries stand and every circuit has one for its ship. -/
theorem State.shipsOnce_of (cores : ∀ m, (t.line m).cores = (s.line m).cores)
    (manned : ∀ m, s.manned m → t.manned m) (hs : s.shipsOnce) : t.shipsOnce := by
  obtain ⟨nodup, all, pool⟩ := State.shipsOnce_iff.mp hs
  have same : t.shipsHeld = s.shipsHeld := by simp only [State.shipsHeld_eq, cores]
  exact State.shipsOnce_iff.mpr ⟨same ▸ nodup, fun m => manned m (all m), same ▸ pool⟩

theorem Eases.shipsOnce {g : List Slot} (h : Eases g s t) (hs : s.shipsOnce) : t.shipsOnce := by
  obtain ⟨nodup, manned, pool⟩ := State.shipsOnce_iff.mp hs
  exact State.shipsOnce_iff.mpr ⟨nodup_of_subperm h.shipsHeld nodup, fun l => h.manned (manned l),
    h.shipsHeld.length_le.trans pool⟩

/-- The law of R71 where no slot joins a queue and no part comes on air. -/
theorem State.onePartOnAir_of (slots : ∀ m, ∀ j ∈ (t.line m).bulletinSlots, j ∈ (s.line m).bulletinSlots)
    (air : ∀ m i, t.partOnAir m i = true → s.partOnAir m i = true) (hs : s.onePartOnAir) : t.onePartOnAir :=
  fun m i hi j hj ai aj => hs m i (slots m i hi) j (slots m j hj) (air m i ai) (air m j aj)

theorem RecordsKept.partOnAir {g : List Slot} (h : RecordsKept g s t) {i : Slot} (ha : t.partOnAir l i = true) :
    s.partOnAir l i = true := by
  rw [State.partOnAir_eq, Option.any_eq_true] at ha ⊢
  obtain ⟨r', hr', ha'⟩ := ha
  exact h.air i r' l hr' ha'

theorem Eases.onePartOnAir {g : List Slot} (h : Eases g s t) (hs : s.onePartOnAir) : t.onePartOnAir :=
  State.onePartOnAir_of (fun m => (h.lines m).slots) (fun _ _ ha => h.records.partOnAir ha) hs

/-- With no bulletin on air, none is after easing work. -/
theorem Eases.bulletinOnAir_none {g : List Slot} (h : Eases g s t) (hs : s.bulletinOnAir l = none) :
    t.bulletinOnAir l = none := by
  rw [State.bulletinOnAir_none_iff] at hs ⊢
  refine fun i hi => Bool.eq_false_iff.mpr fun ha => ?_
  exact absurd ((hs i ((h.lines l).slots i hi)).symm.trans (h.records.partOnAir ha)) nofun

/-- A message that has not left its entry stands where it stood. -/
theorem RecordsKept.placed {g : List Slot} (h : RecordsKept g s t) {ship : Nat} {i : Slot} (hi : i ∉ g)
    (hs : s.placed l ship i) : t.placed l ship i := by
  obtain ⟨r, hr, post, works⟩ := hs
  obtain ⟨r', hr', post', -, state⟩ := h.telex i r _ hi hr post fun e => by rw [e] at works; cases works
  refine ⟨r', hr', post', ?_⟩
  rcases state with e | ⟨-, -, w⟩
  · rwa [e]
  · exact w

theorem RecordsKept.claimHeld {g : List Slot} (h : RecordsKept g s t) {key : Key} {i : Slot} (hi : i ∉ g)
    (hs : s.claimHeld key i) : t.claimHeld key i := by
  obtain ⟨r, ship, hr, hk, claiming, post⟩ := hs
  obtain ⟨r', hr', post', hk', state⟩ := h.telex i r _ hi hr post fun e => by rw [e] at claiming; cases claiming
  refine ⟨r', ship, hr', hk'.trans hk, ?_, post'⟩
  rcases state with e | ⟨w, -, -⟩
  · rw [e, claiming]
  · rw [claiming] at w; cases w

/-- The law of R133 after easing work, where the slots that left are no message, no current message and no claim
of the card that results. -/
theorem Eases.messagesPlaced {g : List Slot} (h : Eases g s t) (hs : s.messagesPlaced)
    (entries : ∀ m, ∀ p ∈ (t.line m).cores, ∀ j ∈ p.2, j ∉ g)
    (current : ∀ m c j, (t.line m).circuit = some c → c.current = some j → j ∉ g)
    (claims : ∀ w ∈ t.claims, w.slot ∉ g) : t.messagesPlaced := by
  obtain ⟨hEntries, hCurrent, hClaims⟩ := State.messagesPlaced_iff.mp hs
  refine State.messagesPlaced_iff.mpr ⟨fun m p' hp' => ?_, fun m c' j hc' hj => ?_, fun w' hw' => ?_⟩
  · obtain ⟨p, hp, ship, sub⟩ := (h.lines m).entries p' hp'
    obtain ⟨nodup, placed⟩ := hEntries m p hp
    exact ⟨nodup.sublist sub, fun i hi => ship ▸ h.records.placed (entries m p' hp' i hi) (placed i (sub.subset hi))⟩
  · have free := current m c' j hc' hj
    obtain ⟨c, hc, ship, cur, kept⟩ := (h.lines m).circuit c' hc'
    obtain ⟨hj', carries⟩ := cur j hj
    obtain ⟨air, state, ms, hms, hjm⟩ := hCurrent m c j hc hj'
    obtain ⟨ms', hms', still⟩ := kept ms hms
    refine ⟨?_, carries state, ms', ship ▸ hms', still j hjm free⟩
    obtain ⟨r, hr, post, works⟩ := (hEntries m _ hms).2 j hjm
    have onAir : r.state = .onAir := by simpa [State.isOnAir, hr] using air
    obtain ⟨r', hr', -, -, state'⟩ := h.records.telex j r _ free hr post (by rw [onAir]; decide)
    rcases state' with e | ⟨-, n, -⟩
    · simp [State.isOnAir, hr', e, onAir]
    · exact absurd onAir n
  · obtain ⟨w, hw, key, slot⟩ := h.claims w' hw'
    rw [key, slot]
    exact h.records.claimHeld (slot ▸ claims w' hw') (hClaims w hw)

/-- A line without a circuit is left without one. -/
theorem Eases.idle {g : List Slot} (h : Eases g s t) (hs : (s.line l).circuit = none) : (t.line l).circuit = none := by
  cases hc : (t.line l).circuit with
  | none => rfl
  | some c =>
    obtain ⟨c', hc', -⟩ := (h.lines l).circuit c hc
    rw [hs] at hc'
    cases hc'

/-- The laws of messages and claims where circuits and entries stand, and telex records too. -/
theorem State.messages_of (circuit : ∀ m, (t.line m).circuit = (s.line m).circuit)
    (cores : ∀ m, (t.line m).cores = (s.line m).cores)
    (records : ∀ i r, s.record i = some r → r.post ≠ none → t.record i = some r) (hs : s.messagesPlaced) :
    (∀ m, ∀ p ∈ (t.line m).cores, p.2.Nodup ∧ ∀ i ∈ p.2, t.placed m p.1 i) ∧ (∀ m, t.currentPlaced m)
      ∧ ∀ key i, s.claimHeld key i → t.claimHeld key i := by
  obtain ⟨entries, current, -⟩ := State.messagesPlaced_iff.mp hs
  refine ⟨fun m p hp => ?_, fun m c i hc hi => ?_, fun key i => ?_⟩
  · rw [cores] at hp
    refine ⟨(entries m p hp).1, fun i hi => ?_⟩
    obtain ⟨r, hr, post, works⟩ := (entries m p hp).2 i hi
    exact ⟨r, records i r hr (by rw [post]; nofun), post, works⟩
  · rw [circuit] at hc
    obtain ⟨air, state, ms, hms, him⟩ := current m c i hc hi
    obtain ⟨r, hr, post, -⟩ := (entries m _ hms).2 i him
    refine ⟨?_, state, ms, (cores m).symm ▸ hms, him⟩
    rw [State.isOnAir, records i r hr (by rw [post]; nofun), ← hr]
    exact air
  · rintro ⟨r, ship, hr, hk, claiming, post⟩
    exact ⟨r, ship, records i r hr (by rw [post]; nofun), hk, claiming, post⟩

theorem Eases.lawful (h : Eases [] s t) : Lawful s t :=
  ⟨h.shipsOnce, fun _ hm => h.messagesPlaced hm (fun _ _ _ _ _ => List.not_mem_nil)
    (fun _ _ _ _ _ => List.not_mem_nil) fun _ _ => List.not_mem_nil, h.onePartOnAir⟩

end Sys2Proof.Machine

namespace Sys2Proof.Machine

variable {l : LineId} {s t u : State}

/-! ## What work on bulletins leaves of the records -/

theorem Record.post_modBulletin (r : Record) (f : Bulletin → Bulletin) : (r.modBulletin f).post = r.post := by
  unfold Record.modBulletin Record.post Record.telex?
  cases h : r.body <;> simp [h]

/-- A record with a part on some line is a bulletin's. -/
theorem State.post_of_part {i : Slot} {p : Part} (h : s.part? i l = some p) {r : Record} (hr : s.record i = some r) :
    r.post = none := by
  cases hb : r.body with
  | bulletin b => exact Record.post_bulletin hb
  | telex x => simp [State.part?, hr, Record.part?, Record.parts, Record.bulletin?, hb] at h

theorem State.post_of_partOnAir {i : Slot} (h : s.partOnAir l i = true) {r : Record} (hr : s.record i = some r) :
    r.post = none := by
  obtain ⟨p, hp, -⟩ := Option.any_eq_true _ _ |>.mp h
  exact State.post_of_part hp hr

/-- The parts that air after work on the records, on every line. -/
theorem RecordsKept.of_recordsFrom {g : List Slot} (air : ∀ m, State.recordsFrom m s t)
    (telex : ∀ i r p, i ∉ g → s.record i = some r → r.post = some p → r.state ≠ .reporting →
      ∃ r', t.record i = some r' ∧ r'.post = some p ∧ r'.key = r.key
        ∧ (r'.state = r.state ∨ (r.state.works = true ∧ r.state ≠ .onAir ∧ r'.state.works = true))) :
    RecordsKept g s t :=
  ⟨telex, fun i r' m hr' ha => by
    obtain ⟨r, hr, -, airs⟩ := air m i r' hr'
    exact ⟨r, hr, airs ha⟩⟩

/-- Work on one bulletin's record. -/
theorem RecordsKept.of_bulletin {i : Slot} (air : ∀ m, State.recordsFrom m s t)
    (others : ∀ j, j ≠ i → t.record j = s.record j) (bulletin : ∀ r, s.record i = some r → r.post = none) :
    RecordsKept [] s t :=
  .of_recordsFrom air fun j r p _ hr hp _ => by
    have hj : j ≠ i := fun e => by
      subst e
      rw [bulletin r hr] at hp
      cases hp
    exact ⟨r, (others j hj).trans hr, hp, rfl, .inl rfl⟩

/-- Work after which nothing is asked of one slot's record: its message leaves its entry. -/
theorem RecordsKept.of_left {i : Slot} (air : ∀ m, State.recordsFrom m s t)
    (others : ∀ j, j ≠ i → t.record j = s.record j) : RecordsKept [i] s t :=
  .of_recordsFrom air fun j r _ hj hr hp _ =>
    ⟨r, (others j fun e => hj (List.mem_singleton.mpr e)).trans hr, hp, rfl, .inl rfl⟩

theorem RecordsKept.then (h1 : RecordsKept [] s t) (h2 : RecordsKept [] t u) : RecordsKept [] s u := h1.trans h2

theorem RecordsKept.foldl {α : Type} {f : State → α → State} (h : ∀ t a, RecordsKept [] t (f t a)) (as : List α) :
    ∀ s : State, RecordsKept [] s (as.foldl f s) := by
  induction as with
  | nil => exact fun s => .refl s
  | cons a rest ih => exact fun s => (h s a).then (ih _)

/-- A record changed in fields the laws do not speak of. -/
theorem RecordsKept.modRecord (s : State) (i : Slot) {f : Record → Record}
    (h : ∀ r, (f r).post = r.post ∧ (f r).key = r.key
      ∧ ((f r).state = r.state ∨ (r.state.works = true ∧ r.state ≠ .onAir ∧ (f r).state.works = true)))
    (air : ∀ r m, (f r).airs m = true → r.airs m = true) : RecordsKept [] s (s.modRecord i f) where
  telex j r p _ hr hp _ := by
    by_cases hj : j = i
    · subst hj
      obtain ⟨post, key, state⟩ := h r
      exact ⟨f r, by rw [State.record_modRecord_self, hr]; rfl, post.trans hp, key, state⟩
    · exact ⟨r, (State.record_modRecord_ne s f hj).trans hr, hp, rfl, .inl rfl⟩
  air j r' m hr' ha := by
    by_cases hj : j = i
    · subst hj
      rw [State.record_modRecord_self, Option.map_eq_some_iff] at hr'
      obtain ⟨r, hr, rfl⟩ := hr'
      exact ⟨r, hr, air r m ha⟩
    · exact ⟨r', (State.record_modRecord_ne s f hj).symm.trans hr', ha⟩

/-- A part changed that is not put on air by it. -/
theorem RecordsKept.modPart (s : State) (i : Slot) (m : LineId) {f : Part → Part} (line : ∀ p, (f p).line = p.line)
    (air : ∀ p, (f p).state = .onAir → p.state = .onAir) : RecordsKept [] s (s.modPart i m f) :=
  .of_recordsFrom (fun k => (PartWork.modPart (l := k) s i m line air).records) fun j r p _ hr hp _ => by
    by_cases hj : j = i
    · subst hj
      have kept := r.modBulletin_kept fun b => { b with parts := b.parts.map fun p => if p.line = m then f p else p }
      refine ⟨r.modPart m f, ?_, (Record.post_modBulletin r _).trans hp, kept.1, .inl kept.2⟩
      rw [State.modPart, State.record_modRecord_self, hr]
      rfl
    · exact ⟨r, (State.record_modRecord_ne s _ hj).trans hr, hp, rfl, .inl rfl⟩

theorem RecordsKept.clearPassMarks (s : State) (l : LineId) : RecordsKept [] s (s.clearPassMarks l) :=
  .foldl (fun t i => .modPart t i l (f := fun p => { p with passMark := false }) (fun _ => rfl) fun _ => id) _ s

theorem RecordsKept.closeWindow (s : State) (l : LineId) : RecordsKept [] s (s.closeWindow l) :=
  (RecordsKept.clearPassMarks s l).then (.of_records rfl)

theorem RecordsKept.unitEnds (s : State) (l : LineId) : RecordsKept [] s (s.unitEnds l) := by
  have marked : RecordsKept [] s (s.modLine l fun x => { x with
      window := { x.window with unitsEnded := true }, arbiter := x.arbiter.endBTurn }) := .of_records rfl
  unfold State.unitEnds
  split
  · dsimp only
    split
    · exact marked
    · exact marked.then (.closeWindow _ l)
  · exact .refl s

theorem RecordsKept.endNotice (s : State) (l : LineId) : RecordsKept [] s (s.endNotice l) := by
  have dropped : RecordsKept [] s (s.dropNotice l) := .of_records rfl
  exact iteInduction (fun _ => .refl s) fun _ => dropped.then (.unitEnds _ l)

theorem RecordsKept.withdrawPart (s : State) {i : Slot} (m : LineId) (cut : Bool)
    (h : ∀ r, s.record i = some r → r.post = none) : RecordsKept [] s (s.withdrawPart i m cut) := by
  refine .of_bulletin (fun k r' => ?_) (fun j hj => s.withdrawPart_record_ne hj m cut) h
  have changed : State.recordsFrom k s ((s.leaveQueues m i).modRecord i (Record.withoutPart m cut)) := by
    refine State.recordsFrom_trans (State.recordsFrom_of_eq (t := s.leaveQueues m i) rfl)
      (State.recordsFrom_modRecord _ i fun r => ⟨by simp [Record.withoutPart, Record.dropPart], fun ha => ?_⟩)
    rw [Record.airs, Record.part?, Record.withoutPart, Record.parts_countCut, ← Record.part?,
      Record.part?_dropPart] at ha
    split at ha
    · cases ha
    · exact ha
  rcases s.withdrawPart_cases i m cut with e | e
  · rw [e]; exact changed r'
  · rw [e]; exact State.recordsFrom_trans changed (PartWork.finishWithdrawal _ i).records r'

theorem RecordsKept.freeIfSpent (s : State) (i : Slot) : RecordsKept [] s (s.freeIfSpent i) :=
  .of_recordsFrom (fun _ => (PartWork.freeIfSpent s i).records) fun j r p _ hr hp live => by
    rcases s.freeIfSpent_cases i with e | ⟨r0, hr0, reporting, -, e⟩
    · exact ⟨r, by rw [e]; exact hr, hp, rfl, .inl rfl⟩
    · have hj : j ≠ i := fun c => by
        subst c
        rw [hr] at hr0
        cases hr0
        exact live reporting
      exact ⟨r, by rw [e, State.record_setRecord_ne _ _ hj]; exact hr, hp, rfl, .inl rfl⟩

theorem RecordsKept.endWork (s : State) {i : Slot} (h : ∀ r, s.record i = some r → r.post = none) :
    RecordsKept [] s (s.endWork i) :=
  .of_bulletin (fun _ => (PartWork.endWork s i).records) (fun _ hj => s.endWork_record_ne hj) h

theorem RecordsKept.retireIfDone (s : State) (i : Slot) : RecordsKept [] s (s.retireIfDone i) := by
  unfold State.retireIfDone
  split
  · exact .refl s
  · next r hr =>
    split
    · exact .refl s
    · next h =>
      have bulletin : ∀ r', s.record i = some r' → r'.post = none := fun r' hr' => by
        obtain rfl := Option.some.inj (hr.symm.trans hr')
        cases hb : r.body with
        | bulletin b => exact Record.post_bulletin hb
        | telex x => simp [Record.parts, Record.bulletin?, hb] at h
      exact (RecordsKept.endWork s bulletin).then (.freeIfSpent _ i)

theorem RecordsKept.completeSending (s : State) (l : LineId) (i : Slot) : RecordsKept [] s (s.completeSending l i) := by
  unfold State.completeSending
  split
  · next p b _ _ =>
    have queued : ∀ p : Part, (p.completed b.kind).state = .onAir → p.state = .onAir := by
      intro p hp
      simp only [Part.completed] at hp
      split at hp <;> cases hp
    have sent := RecordsKept.modPart s i l (f := fun p => p.completed b.kind) (fun _ => rfl) queued
    generalize s.modPart i l _ = v at sent ⊢
    have requeued : (v.requeue l i b.kind (p.remaining.less = .times 0)).records = v.records := by
      unfold State.requeue
      split
      · rfl
      · split <;> rfl
    have counted : ∀ w : State, w.records = v.records →
        RecordsKept [] s ((w.modCounters l fun c => { c with bulletinSendings := bump c.bulletinSendings }).addBsent
          i l p.remaining.less) := fun w hw => by
      refine sent.then (.of_records ?_)
      unfold State.addBsent
      split
      · exact hw
      · exact hw
    have told := counted _ requeued
    dsimp only
    split
    · exact (told.then (.unitEnds _ l)).then (.retireIfDone _ i)
    · exact told.then (.retireIfDone _ i)
  · exact .refl s

theorem RecordsKept.stopSending (s : State) {i : Slot} (h : ∀ r, s.record i = some r → r.post = none) :
    RecordsKept [] s (s.stopSending l i) := by
  have abandoned : RecordsKept [] s (s.abandonSending l i) :=
    (RecordsKept.modPart s i l (f := Part.abandoned) (fun _ => rfl) fun _ h => by cases h).then (.of_records rfl)
  exact iteInduction (fun _ => .withdrawPart s l true h) fun _ => abandoned

theorem RecordsKept.removeWithdrawn (s : State) (l : LineId) (i : Slot) :
    RecordsKept [] s (s.removeWithdrawn l i) := by
  unfold State.removeWithdrawn
  split
  · next h =>
    obtain ⟨p, hp, -⟩ := Option.any_eq_true _ _ |>.mp (Bool.and_eq_true _ _ |>.mp h).2
    exact .withdrawPart s l false fun r hr => State.post_of_part hp hr
  · exact .refl s

/-! ## Easing work of the bulletin unit and the window -/

theorem Eases.addReport (s : State) (i : Slot) (item : ReportItem) : Eases [] s (s.addReport i item) :=
  .of_eq rfl rfl rfl

theorem Eases.dropNotice (s : State) : Eases [] s (s.dropNotice l) := .modWindow s _

theorem Eases.endOfMessage (s : State) (i : Slot) : Eases [] s (s.endOfMessage l i) := .modWindow s _

theorem Eases.closeWindow (s : State) : Eases [] s (s.closeWindow l) :=
  (PartWork.closeWindow s).eases (.closeWindow s l) (by simp)

theorem Eases.unitEnds (s : State) : Eases [] s (s.unitEnds l) := (PartWork.unitEnds s).eases (.unitEnds s l) (by simp)

theorem Eases.endNotice (s : State) : Eases [] s (s.endNotice l) :=
  iteInduction (fun _ => .refl s) fun _ => (Eases.dropNotice s).then (.unitEnds _)

theorem Eases.completeSending (s : State) {i : Slot} (h : i ∈ (s.line l).bulletinSlots) :
    Eases [] s (s.completeSending l i) :=
  (PartWork.completeSending s h).eases (.completeSending s l i) (by simp)

theorem Eases.withdrawPart (s : State) {i : Slot} (cut : Bool) (h : ∀ r, s.record i = some r → r.post = none) :
    Eases [] s (s.withdrawPart i l cut) :=
  (PartWork.withdrawPart s i cut).eases (.withdrawPart s l cut h) (by simp)

theorem Eases.bulletinStopped (s : State) : Eases [] s (s.bulletinStopped l) := by
  refine (PartWork.bulletinStopped s).eases ?_ ?_
  · unfold State.bulletinStopped
    split
    · next i hi => exact .stopSending s fun r hr => State.post_of_partOnAir (State.bulletinOnAir_spec hi).2 hr
    · exact .refl s
  · unfold State.bulletinStopped
    split <;> simp

theorem Eases.breakSending (s : State) {i : Slot} (h : ∀ r, s.record i = some r → r.post = none) :
    Eases [] s (s.breakSending l i).1 := by
  have withdrawn : Eases [] s (s.withdrawPart i l true) := .withdrawPart s true h
  unfold State.breakSending
  dsimp only
  split
  · exact withdrawn.then (.unitEnds _)
  · exact withdrawn

theorem Eases.abandonSending (s : State) (i : Slot) : Eases [] s (s.abandonSending l i) :=
  (PartWork.abandonSending s i).eases
    ((RecordsKept.modPart s i l (f := Part.abandoned) (fun _ => rfl) fun _ h => by cases h).then (.of_records rfl)) rfl

theorem Eases.removeAllWithdrawn (s : State) : Eases [] s (s.removeAllWithdrawn l) :=
  (PartWork.removeAllWithdrawn s).eases (.foldl (fun t i => .removeWithdrawn t l i) _ s) (by simp)

theorem Eases.continueSending (s : State) (i : Slot) : Eases [] s (s.continueSending l i).1 := by
  have onward : ∀ step, Eases [] s (s.modPart i l fun p => { p with formStep := step }) := fun step =>
    (PartWork.modPart (l := l) s i l (f := fun p => { p with formStep := step }) (fun _ => rfl) fun _ => id).eases
      (.modPart s i l (f := fun p => { p with formStep := step }) (fun _ => rfl) fun _ => id) rfl
  unfold State.continueSending
  dsimp only
  split
  · exact onward _
  · exact onward _

/-! ## Entries -/

/-- The entries of a line change without a change of ships or messages. -/
theorem Eases.modCalls (s : State) {f : Line → List Entry}
    (h : ∀ x, (f x).map (fun e => (e.ship, e.messages)) = x.cores) :
    Eases [] s (s.modLine l fun x => { x with callList := f x }) :=
  .modLine s (.of_cores rfl (h _) fun _ => id)

theorem Eases.modEntry (s : State) (ship : Nat) {f : Entry → Entry} (hs : ∀ e, (f e).ship = e.ship)
    (hm : ∀ e, (f e).messages = e.messages) : Eases [] s (s.modEntry l ship f) :=
  .modCalls s fun x => by
    rw [List.map_map, Line.cores]
    refine List.map_congr_left fun e _ => ?_
    by_cases h : e.ship = ship <;> simp [h, hs, hm]

theorem Eases.decreaseHolds (s : State) (before : List Entry) : Eases [] s (s.decreaseHolds l before) :=
  .modCalls s fun x => by
    rw [List.map_map, Line.cores]
    refine List.map_congr_left fun e _ => ?_
    rw [Function.comp_apply, Entry.decreased]
    split <;> rfl

/-- Entries of a line without a circuit may go. -/
theorem Eases.idleCalls (s : State) {f : Line → List Entry} (h : (s.line l).circuit = none)
    (sub : ((f (s.line l)).map fun e => (e.ship, e.messages)).Subperm (s.line l).cores) :
    Eases [] s (s.modLine l fun x => { x with callList := f x }) :=
  .modLine s (.of_idle h sub rfl)

theorem Eases.freeEntry (s : State) (ship : Nat) (h : (s.line l).circuit = none) :
    Eases [] s (s.freeEntry l ship) :=
  .idleCalls s h (List.filter_sublist.map _).subperm

theorem Eases.freeEmptyEntry (s : State) (ship : Nat) (h : (s.line l).circuit = none) :
    Eases [] s (s.freeEmptyEntry l ship) :=
  .idleCalls s h (List.filter_sublist.map _).subperm

/-- An entry with its ship's other entries gone is part of its call list. -/
theorem subperm_of_entry {x : Line} {ship : Nat} {e : Entry} (h : x.entry? ship = some e) :
    (e :: x.callList.filter fun e' => e'.ship ≠ ship).Subperm x.callList := by
  have mem : e ∈ x.callList.filter fun e' => decide (e'.ship = ship) :=
    List.mem_filter.mpr ⟨List.mem_of_find?_eq_some h, by simpa using List.find?_some h⟩
  have parts := List.filter_append_perm (fun e' => decide (e'.ship = ship)) x.callList
  have others : (x.callList.filter fun e' => !decide (e'.ship = ship))
      = x.callList.filter fun e' => e'.ship ≠ ship := List.filter_congr fun e' _ => by simp
  rw [others] at parts
  exact ((List.singleton_sublist.mpr mem).append_right _).subperm.trans parts.subperm

theorem Eases.entryToHead (s : State) (ship : Nat) {f : Entry → Entry} (hs : ∀ e, (f e).ship = e.ship)
    (hm : ∀ e, (f e).messages = e.messages) (h : (s.line l).circuit = none) :
    Eases [] s (s.entryToHead l ship f) := by
  rw [State.entryToHead_eq]
  refine .idleCalls s h ?_
  split
  · exact List.Subperm.refl _
  · next e he =>
    rw [List.map_cons, hs, hm]
    exact subperm_map (fun e : Entry => (e.ship, e.messages)) (subperm_of_entry he)

theorem Eases.entryToTail (s : State) (ship : Nat) {f : Entry → Entry} (hs : ∀ e, (f e).ship = e.ship)
    (hm : ∀ e, (f e).messages = e.messages) (h : (s.line l).circuit = none) :
    Eases [] s (s.entryToTail l ship f) := by
  rw [State.entryToTail_eq]
  refine .idleCalls s h ?_
  split
  · exact List.Subperm.refl _
  · next e he =>
    rw [List.map_append, List.map_singleton, hs, hm]
    exact (List.perm_append_singleton _ _).subperm.trans
      (subperm_map (fun e : Entry => (e.ship, e.messages)) (subperm_of_entry he))

theorem Eases.placeCleared (s : State) (ship : Nat) (failed : Bool) (h : (s.line l).circuit = none) :
    Eases [] s (s.placeCleared l ship failed) := by
  unfold State.placeCleared
  split
  · exact .refl s
  · split
    · exact .freeEntry s ship h
    · split
      · exact .entryToHead s ship (fun _ => rfl) (fun _ => rfl) h
      · split
        · exact .refl s
        · exact .entryToTail s ship (fun _ => rfl) (fun _ => rfl) h

end Sys2Proof.Machine

namespace Sys2Proof.Machine

variable {l : LineId} {s t u : State} {c : Circuit}

/-! ## A message leaves its entry -/

theorem cores_callsWithout (calls : List Entry) (ship : Nat) (i : Slot) :
    (callsWithout calls ship i).map (fun e => (e.ship, e.messages))
      = (calls.map fun e => (e.ship, e.messages)).map fun p => if p.1 = ship then (p.1, p.2.erase i) else p := by
  rw [callsWithout, List.map_map, List.map_map]
  refine List.map_congr_left fun e _ => ?_
  by_cases h : e.ship = ship <;> simp [h]

theorem cores_callsKept (calls : List Entry) (ship : Nat) :
    (callsKept calls ship).map (fun e => (e.ship, e.messages))
      = (calls.map fun e => (e.ship, e.messages)).filter fun p => !(decide (p.1 = ship) && p.2.isEmpty) := by
  rw [callsKept, List.filter_map]
  rfl

/-- A line whose entry of a ship has lost one message, and is freed where it is left empty and the line does not
work for the ship (R28). -/
theorem Line.Eases.leave (x : Line) (ship : Nat) (i : Slot) :
    x.Eases [i] { x with
      callList := if x.worksFor ship then callsWithout x.callList ship i
        else callsKept (callsWithout x.callList ship i) ship } := by
  have struck : ∀ p ∈ x.cores.map (fun p => if p.1 = ship then (p.1, p.2.erase i) else p),
      ∃ p0 ∈ x.cores, p.1 = p0.1 ∧ p.2.Sublist p0.2 := fun p hp => by
    obtain ⟨p0, h0, rfl⟩ := List.mem_map.mp hp
    refine ⟨p0, h0, ?_⟩
    split
    · exact ⟨rfl, List.erase_sublist⟩
    · exact ⟨rfl, List.Sublist.refl _⟩
  have ships : (x.cores.map (fun p => if p.1 = ship then (p.1, p.2.erase i) else p)).map Prod.fst
      = x.cores.map Prod.fst := by
    rw [List.map_map]
    refine List.map_congr_left fun p _ => ?_
    rw [Function.comp_apply]
    split <;> rfl
  have kept : ∀ ms ship', (ship', ms) ∈ x.cores → ∃ ms', (ship', ms')
      ∈ x.cores.map (fun p => if p.1 = ship then (p.1, p.2.erase i) else p)
        ∧ (ship' ≠ ship → ms' = ms) ∧ ∀ j ∈ ms, j ∉ [i] → j ∈ ms' := fun ms ship' hm => by
    refine ⟨if ship' = ship then ms.erase i else ms, List.mem_map.mpr ⟨_, hm, ?_⟩, fun h => if_neg h, fun j hj hn => ?_⟩
    · split <;> rfl
    · split
      · exact (List.mem_erase_of_ne fun e => hn (List.mem_singleton.mpr e)).mpr hj
      · exact hj
  cases works : x.worksFor ship with
  | true =>
    have cores : Line.cores { x with callList := callsWithout x.callList ship i }
        = x.cores.map fun p => if p.1 = ship then (p.1, p.2.erase i) else p := cores_callsWithout _ _ _
    rw [if_pos rfl]
    refine ⟨by rw [cores, ships], by rw [cores]; exact struck, fun c hc => ⟨c, hc, rfl, fun _ hj => ⟨hj, id⟩, ?_⟩,
      fun _ => id⟩
    intro ms hm
    obtain ⟨ms', hm', -, still⟩ := kept ms c.ship hm
    exact ⟨ms', by rw [cores]; exact hm', still⟩
  | false =>
    have cores : Line.cores { x with callList := callsKept (callsWithout x.callList ship i) ship }
        = (x.cores.map fun p => if p.1 = ship then (p.1, p.2.erase i) else p).filter
            fun p => !(decide (p.1 = ship) && p.2.isEmpty) :=
      (cores_callsKept _ _).trans (by rw [cores_callsWithout]; rfl)
    rw [if_neg nofun]
    refine ⟨?_, ?_, fun c hc => ⟨c, hc, rfl, fun _ hj => ⟨hj, id⟩, ?_⟩, fun _ => id⟩
    · rw [cores, ← ships]
      exact (List.filter_sublist.map _).subperm
    · rw [cores]
      exact fun p hp => struck p (List.mem_of_mem_filter hp)
    · intro ms hm
      have other : c.ship ≠ ship := by simpa [Line.worksFor, show x.circuit = some c from hc] using works
      obtain ⟨ms', hm', -, still⟩ := kept ms c.ship hm
      exact ⟨ms', by rw [cores]; exact List.mem_filter.mpr ⟨hm', by simp [other]⟩, still⟩

theorem State.leaveEntry_lines (s : State) (i : Slot) (m : LineId) :
    (s.line m).Eases [i] ((s.leaveEntry i).line m) := by
  rcases s.leaveEntry_cases i with e | ⟨r, x, k, hr, hb, hk⟩
  · rw [e]; exact (Line.Eases.refl _).weaken _
  · rw [State.leaveEntry_eq hr hb hk]
    by_cases h : m = k
    · subst h; rw [State.line_modLine_self]; exact .leave _ _ _
    · rw [State.line_modLine_ne _ _ h]; exact (Line.Eases.refl _).weaken _

/-- A message that stands only where its record says is in no entry once it has left (R28, R133). -/
theorem State.leaveEntry_left {i : Slot} (h : ∀ m, ∀ p ∈ (s.line m).cores,
      p.2.Nodup ∧ (i ∈ p.2 → ∃ r, s.record i = some r ∧ r.post = some (some m, p.1))) :
    ∀ m, ∀ p ∈ ((s.leaveEntry i).line m).cores, i ∉ p.2 := by
  intro m p' hp' hi
  obtain ⟨p, hp, ship, sub⟩ := (s.leaveEntry_lines i m).entries p' hp'
  obtain ⟨r, hr, post⟩ := (h m p hp).2 (sub.subset hi)
  obtain ⟨x, hb, hm, hs⟩ := Record.post_eq_some.mp post
  rw [State.leaveEntry_eq hr hb hm, State.line_modLine_self] at hp'
  have struck : p' ∈ (callsWithout (s.line m).callList x.ship i).map fun e => (e.ship, e.messages) := by
    simp only [Line.cores] at hp'
    split at hp'
    · exact hp'
    · rw [cores_callsKept] at hp'
      exact List.mem_of_mem_filter hp'
  rw [cores_callsWithout] at struck
  obtain ⟨p0, h0, rfl⟩ := List.mem_map.mp struck
  have same : p0.1 = x.ship := by
    rw [hs, ← ship]
    split <;> rfl
  rw [if_pos same] at hi
  exact ((h m p0 h0).1.mem_erase_iff.mp hi).1 rfl

/-- No circuit of the card has a message as its current one. -/
def State.unaired (s : State) (i : Slot) : Prop := ∀ m c, (s.line m).circuit = some c → c.current ≠ some i

theorem State.placed_unique {a b : Nat} {m : LineId} {i : Slot} (h1 : s.placed l a i) (h2 : s.placed m b i) :
    l = m ∧ a = b := by
  obtain ⟨r, hr, post, -⟩ := h1
  obtain ⟨r', hr', post', -⟩ := h2
  rw [Option.some.inj (hr.symm.trans hr'), post'] at post
  simp only [Option.some.injEq, Prod.mk.injEq] at post
  exact ⟨post.1.symm, post.2.symm⟩

/-- A message is the current one of one circuit at most. -/
theorem State.current_line (h : s.messagesPlaced) (hc : (s.line l).circuit = some c) {i : Slot}
    (hi : c.current = some i) {m : LineId} {d : Circuit} (hd : (s.line m).circuit = some d)
    (hj : d.current = some i) : m = l := by
  obtain ⟨entries, current, -⟩ := State.messagesPlaced_iff.mp h
  obtain ⟨-, -, ms, hms, him⟩ := current l c i hc hi
  obtain ⟨-, -, ms', hms', him'⟩ := current m d i hd hj
  exact (State.placed_unique ((entries m _ hms').2 i him') ((entries l _ hms).2 i him)).1

/-- A message that has left its entry: the law of messages after work that asks nothing of it. -/
theorem Eases.messagesPlaced_left {i : Slot} (h : Eases [i] s t) (hs : s.messagesPlaced)
    (left : ∀ m, ∀ p ∈ (t.line m).cores, i ∉ p.2)
    (current : ∀ m c, (t.line m).circuit = some c → c.current ≠ some i)
    (claim : ∀ r, s.record i = some r → r.state ≠ .claiming) : t.messagesPlaced := by
  refine h.messagesPlaced hs (fun m p hp j hj e => ?_) (fun m c j hc hj e => ?_) fun w hw e => ?_
  · rw [List.mem_singleton] at e
    exact left m p hp (e ▸ hj)
  · rw [List.mem_singleton] at e
    exact current m c hc (e ▸ hj)
  · obtain ⟨w0, hw0, -, slot⟩ := h.claims w hw
    obtain ⟨r, ship, hr, -, claiming, -⟩ := (State.messagesPlaced_iff.mp hs).2.2 w0 hw0
    rw [← slot, List.mem_singleton.mp e] at hr
    exact claim r hr claiming

/-- The entries after a message has left them. -/
theorem State.left_of_placed {i : Slot} (hs : s.messagesPlaced) (lines : u.lines = s.lines)
    (post : ∀ r, s.record i = some r → ∃ r', u.record i = some r' ∧ r'.post = r.post) :
    ∀ m, ∀ p ∈ ((u.leaveEntry i).line m).cores, i ∉ p.2 := by
  refine State.leaveEntry_left fun m p hp => ?_
  rw [State.line_congr lines] at hp
  obtain ⟨nodup, placed⟩ := (State.messagesPlaced_iff.mp hs).1 m p hp
  refine ⟨nodup, fun hi => ?_⟩
  obtain ⟨r, hr, hp, -⟩ := placed i hi
  obtain ⟨r', hr', same⟩ := post r hr
  exact ⟨r', hr', same.trans hp⟩

theorem State.leaveEntry_frame (s : State) (i : Slot) :
    (s.leaveEntry i).records = s.records ∧ (s.leaveEntry i).claims = s.claims := by
  rcases s.leaveEntry_cases i with e | ⟨r, x, m, hr, hb, hm⟩
  · rw [e]; exact ⟨rfl, rfl⟩
  · rw [State.leaveEntry_eq hr hb hm]; exact ⟨rfl, rfl⟩

theorem Eases.finishTelex (s : State) (i : Slot) (item : ReportItem) : Eases [i] s (s.finishTelex i item) where
  lines m := by
    rw [← State.line_congr (s.endWork_lines i) m]
    exact State.leaveEntry_lines _ i m
  records := .of_left (fun m => (LineWork.finishTelex (l := m) s item rfl).records) fun j hj =>
    (State.record_congr (State.leaveEntry_frame _ i).1 j).trans (s.endWork_record_ne hj)
  claims w hw := ⟨w, (State.fixed_fields (s.fixed_finishTelex i item)).2.2.2.2.2.2.2 ▸ hw, rfl, rfl⟩

theorem State.finishTelex_left {i : Slot} {item : ReportItem} (hs : s.messagesPlaced) :
    ∀ m, ∀ p ∈ ((s.finishTelex i item).line m).cores, i ∉ p.2 :=
  State.left_of_placed hs (s.endWork_lines i) fun _ hr => ⟨_, State.endWork_record hr, rfl⟩

theorem State.finishTelex_circuit (s : State) (i : Slot) (item : ReportItem) (m : LineId) :
    ((s.finishTelex i item).line m).circuit = (s.line m).circuit := by
  rw [← State.line_congr (s.endWork_lines i) m]
  show (((s.endWork i).leaveEntry i).line m).circuit = _
  rcases (s.endWork i).leaveEntry_cases i with e | ⟨r, x, k, hr, hb, hk⟩
  · rw [e]
  · rw [State.leaveEntry_eq hr hb hk]
    by_cases h : m = k
    · subst h; rw [State.line_modLine_self]
    · rw [State.line_modLine_ne _ _ h]

/-- A message finished that is no circuit's and no claim's (R149). -/
theorem LawfulWhen.finishTelex (s : State) (i : Slot) (item : ReportItem) :
    LawfulWhen (s.unaired i ∧ ∀ r, s.record i = some r → r.state ≠ .claiming) s (s.finishTelex i item) where
  ships := (Eases.finishTelex s i item).shipsOnce
  air := (Eases.finishTelex s i item).onePartOnAir
  messages _ hm := fun ⟨unaired, claim⟩ =>
    (Eases.finishTelex s i item).messagesPlaced_left hm (State.finishTelex_left hm)
      (fun m c hc => unaired m c ((s.finishTelex_circuit i item m).symm.trans hc)) claim

/-- The current message of a circuit ends: it is finished, and the circuit goes on without it (R39, R46). -/
theorem Lawful.endMessage (hc : (s.line l).circuit = some c) {i : Slot} (hi : c.current = some i) (item : ReportItem)
    {c' : Circuit} (ship : c'.ship = c.ship) (none' : c'.current = none) :
    Lawful s ((s.finishTelex i item).setCircuit l (some c')) := by
  have h : Eases [i] s ((s.finishTelex i item).setCircuit l (some c')) :=
    (Eases.finishTelex s i item).trans (.setCircuit _ ((s.finishTelex_circuit i item l).trans hc) ship fun _ hj => by
      rw [none'] at hj; cases hj)
  refine ⟨h.shipsOnce, fun _ hm => h.messagesPlaced_left hm (fun m p hp => ?_) (fun m d hd hj => ?_)
    fun r hr claiming => ?_, h.onePartOnAir⟩
  · refine State.finishTelex_left hm m p ?_ (item := item)
    by_cases e : m = l
    · subst e; rwa [State.setCircuit, State.line_modLine_self] at hp
    · rwa [State.setCircuit, State.line_modLine_ne _ _ e] at hp
  · by_cases e : m = l
    · subst e
      rw [State.setCircuit, State.line_modLine_self] at hd
      cases hd
      rw [none'] at hj
      cases hj
    · rw [State.setCircuit, State.line_modLine_ne _ _ e, State.finishTelex_circuit] at hd
      exact e (State.current_line hm hc hi hd hj)
  · have air := ((State.messagesPlaced_iff.mp hm).2.1 l c i hc hi).1
    rw [State.isOnAir, hr, Option.any_some, claiming] at air
    cases air

/-! ## Messages returned and released -/

theorem State.returnMessages_record_ne (reason : Reason) {j : Slot} (is : List Slot) : j ∉ is → ∀ s : State,
    (s.returnMessages reason is).record j = s.record j := by
  induction is with
  | nil => exact fun _ _ => rfl
  | cons i rest ih =>
    intro hj s
    obtain ⟨hi, hrest⟩ := not_or.mp (mt List.mem_cons.mpr hj)
    exact (ih hrest _).trans (s.endWork_record_ne hi)

theorem Eases.returnMessages (s : State) (reason : Reason) (is : List Slot) :
    Eases is s (s.returnMessages reason is) := by
  refine .of_lines (State.returnMessages_lines reason is s) (.of_recordsFrom
    (fun m => (PartWork.returnMessages (l := m) reason is s).records) fun j r p hj hr hp _ =>
      ⟨r, (State.returnMessages_record_ne reason is hj s).trans hr, hp, rfl, .inl rfl⟩) ?_
  exact (State.fixed_fields (State.fixed_returnMessages reason is s)).2.2.2.2.2.2.2

/-- A failed attempt counted on a line without a circuit (R29). -/
theorem Lawful.countAttempt (s : State) (ship : Nat) (reason : Reason) (h : (s.line l).circuit = none) :
    Lawful s (s.countAttempt l ship reason) := by
  unfold State.countAttempt
  split
  · exact .refl s
  · next e he =>
    split
    · have freed := Eases.freeEntry s ship h
      have work := freed.trans (.returnMessages _ reason e.messages)
      have mem : (ship, e.messages) ∈ (s.line l).cores := by
        rw [← Line.entry_ship he]
        exact Line.mem_cores.mpr ⟨e, List.mem_of_find?_eq_some he, rfl, rfl⟩
      refine ⟨work.shipsOnce, fun _ hm => work.messagesPlaced hm (fun m p hp j hj hje => ?_)
        (fun m d j hd hj hje => ?_) fun w hw hje => ?_, work.onePartOnAir⟩
      · obtain ⟨entries, -, -⟩ := State.messagesPlaced_iff.mp hm
        obtain ⟨p0, hp0, hs0, sub⟩ := (freed.lines m).entries p
          (by rwa [State.line_congr (State.returnMessages_lines _ _ _)] at hp)
        obtain ⟨rfl, same⟩ := State.placed_unique ((entries m p0 hp0).2 j (sub.subset hj))
          ((entries l _ mem).2 j hje)
        rw [State.line_congr (State.returnMessages_lines _ _ _), State.freeEntry, State.line_modLine_self,
          Line.mem_cores] at hp
        obtain ⟨e', he', hs', -⟩ := hp
        have other := (List.mem_filter.mp he').2
        rw [hs', hs0, same] at other
        simp at other
      · obtain ⟨entries, current, -⟩ := State.messagesPlaced_iff.mp hm
        obtain ⟨d0, hd0, -, cur, -⟩ := (work.lines m).circuit d hd
        obtain ⟨-, -, ms, hms, hjm⟩ := current m d0 j hd0 (cur j hj).1
        obtain ⟨rfl, -⟩ := State.placed_unique ((entries m _ hms).2 j hjm) ((entries l _ mem).2 j hje)
        rw [h] at hd0
        cases hd0
      · obtain ⟨entries, -, claims⟩ := State.messagesPlaced_iff.mp hm
        obtain ⟨w0, hw0, -, slot⟩ := work.claims w hw
        obtain ⟨r, sh, hr, -, -, post⟩ := claims w0 hw0
        obtain ⟨r', hr', post', -⟩ := (entries l _ mem).2 w.slot hje
        rw [slot, hr] at hr'
        cases hr'
        rw [post] at post'
        cases post'
    · split
      · exact (Eases.freeEntry s ship h).lawful
      · refine Eases.lawful (.entryToTail s ship ?_ ?_ h)
        all_goals exact fun _ => rfl

theorem State.countAttempt_circuit (s : State) (l : LineId) (ship : Nat) (reason : Reason) :
    ((s.countAttempt l ship reason).line l).circuit = (s.line l).circuit := by
  cases h : (s.line l).entry? ship with
  | none => rw [State.countAttempt_none h]
  | some e => rw [State.countAttempt_line h]

theorem Eases.releaseMessage (s : State) (i : Slot) : Eases [i] s (s.releaseMessage i) := by
  unfold State.releaseMessage
  split
  · split
    · exact .finishTelex s i _
    · exact .of_lines rfl (.of_left (fun m => State.recordsFrom_modRecord s i fun _ => ⟨rfl, id⟩) fun _ hj =>
        s.record_modRecord_ne _ hj) rfl
  · exact ⟨fun m => (Line.Eases.refl _).weaken _, .of_left (fun m => State.recordsFrom_refl m s) fun _ _ => rfl,
      fun w hw => ⟨w, hw, rfl, rfl⟩⟩

/-- A message on air, no circuit's any more, is READY again or finished (R43). -/
theorem LawfulWhen.releaseMessage (s : State) (i : Slot) : LawfulWhen (s.unaired i) s (s.releaseMessage i) where
  ships := (Eases.releaseMessage s i).shipsOnce
  air := (Eases.releaseMessage s i).onePartOnAir
  messages hs hm unaired := by
    unfold State.releaseMessage
    split
    · next air =>
      obtain ⟨r0, hr0, onAir⟩ := Option.any_eq_true _ _ |>.mp air
      have onAir : r0.state = .onAir := of_decide_eq_true onAir
      split
      · refine (LawfulWhen.finishTelex s i _).messages hs hm ⟨unaired, fun r hr claiming => ?_⟩
        rw [Option.some.inj (hr.symm.trans hr0), onAir] at claiming
        cases claiming
      · obtain ⟨entries, current, claims⟩ := State.messagesPlaced_iff.mp hm
        have others : ∀ j, j ≠ i → (s.modRecord i fun r => { r with state := .ready }).record j = s.record j :=
          fun j hj => s.record_modRecord_ne _ hj
        refine State.messagesPlaced_iff.mpr ⟨fun m p hp => ⟨(entries m p hp).1, fun j hj => ?_⟩,
          fun m c j hc hj => ?_, fun w hw => ?_⟩
        · obtain ⟨r, hr, post, works⟩ := (entries m p hp).2 j hj
          by_cases e : j = i
          · subst e
            exact ⟨{ r with state := .ready }, by rw [State.record_modRecord_self, hr]; rfl, post, rfl⟩
          · exact ⟨r, (others j e).trans hr, post, works⟩
        · obtain ⟨air', rest⟩ := current m c j hc hj
          refine ⟨?_, rest⟩
          rw [State.isOnAir, others j fun e => unaired m c hc (e ▸ hj)]
          exact air'
        · obtain ⟨r, ship, hr, key, claiming, post⟩ := claims w hw
          refine ⟨r, ship, (others _ fun e => ?_).trans hr, key, claiming, post⟩
          rw [e, hr0] at hr
          cases hr
          rw [onAir] at claiming
          cases claiming
    · exact hm

/-- A circuit is gone from a line: no circuit has its message as its current one. -/
theorem Eases.unaired (h : Eases [] s t) (hm : s.messagesPlaced) (hc : (s.line l).circuit = some c) {i : Slot}
    (hi : c.current = some i) (gone : (t.line l).circuit = none) : t.unaired i := by
  intro m d hd hj
  obtain ⟨d0, hd0, -, cur, -⟩ := (h.lines m).circuit d hd
  have e := State.current_line hm hc hi hd0 (cur i hj).1
  subst e
  rw [gone] at hd
  cases hd

/-- The current message of a circuit that is gone (R43, R48). -/
theorem Lawful.releaseCurrent (h : Eases [] s t) (hc : (s.line l).circuit = some c)
    (gone : (t.line l).circuit = none) : Lawful s (t.releaseCurrent c)
      ∧ ((t.releaseCurrent c).line l).circuit = none := by
  unfold State.releaseCurrent
  split
  · exact ⟨h.lawful, gone⟩
  · next i hi =>
    exact ⟨h.lawful.when (.releaseMessage t i) fun hm => h.unaired hm hc hi gone, (Eases.releaseMessage t i).idle gone⟩

theorem Lawful.endCurrent (h : Eases [] s t) (hc : (s.line l).circuit = some c) (gone : (t.line l).circuit = none) :
    Lawful s (t.endCurrent l c) ∧ ((t.endCurrent l c).line l).circuit = none := by
  obtain ⟨lawful, idle⟩ := Lawful.releaseCurrent h hc gone
  unfold State.endCurrent
  unfold State.releaseCurrent at lawful idle
  split
  · exact ⟨h.lawful, gone⟩
  · next i hi =>
    rw [hi] at lawful idle
    exact ⟨lawful.trans (Eases.endOfMessage _ i).lawful, (Eases.endOfMessage _ i).idle idle⟩

/-! ## The circuit -/

theorem State.setCircuit_circuit (s : State) (l : LineId) (c : Option Circuit) :
    ((s.setCircuit l c).line l).circuit = c := by
  rw [State.setCircuit, State.line_modLine_self]

theorem State.modCounters_circuit (s : State) (l : LineId) (f : LineCounters → LineCounters) :
    ((s.modCounters l f).line l).circuit = (s.line l).circuit := by
  rw [State.modCounters, State.line_modLine_self]

/-- A circuit is dropped and a counter moves. -/
theorem Eases.dropCounted (s : State) (f : LineCounters → LineCounters) :
    Eases [] s ((s.setCircuit l none).modCounters l f) ∧ (((s.setCircuit l none).modCounters l f).line l).circuit = none :=
  ⟨(Eases.dropCircuit s).then (.modCounters _ f), by rw [State.modCounters_circuit, State.setCircuit_circuit]⟩

theorem Lawful.loseCircuit (s : State) (attempt : Bool) :
    Lawful s (s.loseCircuit l attempt) ∧ ((s.loseCircuit l attempt).line l).circuit = none := by
  unfold State.loseCircuit
  split
  · next h => exact ⟨.refl s, h⟩
  · next c hc =>
    obtain ⟨dropped, gone⟩ := Eases.dropCounted (l := l) s fun n => { n with circuitsLost := bump n.circuitsLost }
    obtain ⟨ended, idle⟩ := Lawful.endCurrent dropped hc gone
    dsimp only
    split
    · exact ⟨ended.trans (.countAttempt _ _ _ idle), by rw [State.countAttempt_circuit, idle]⟩
    · exact ⟨ended, idle⟩

theorem Lawful.completeClear (s : State) (c : Circuit) : Lawful s (s.completeClear l c) := by
  unfold State.completeClear
  dsimp only
  split
  · exact ((Eases.dropCircuit s).then (.placeCleared _ _ _ (State.setCircuit_circuit s l none))).lawful
  · obtain ⟨dropped, gone⟩ := Eases.dropCounted (l := l) s fun n => { n with callsFailed := bump n.callsFailed }
    exact (dropped.lawful.trans (.countAttempt _ _ _ gone)).trans
      (Eases.placeCleared _ _ _ (by rw [State.countAttempt_circuit, gone])).lawful

/-- A circuit goes on with its ship and its current message. -/
theorem Lawful.setCarrying (s : State) {c c' : Circuit} (h : (s.line l).circuit = some c) (ship : c'.ship = c.ship)
    (current : c'.current = c.current) (state : c.state.carries = true → c'.state.carries = true) :
    Lawful s (s.setCircuit l (some c')) :=
  (Eases.setCircuit s h ship fun _ hj => ⟨current ▸ hj, state⟩).lawful

/-- A circuit without a current message by its state goes on. -/
theorem Lawful.setIdle (s : State) {c c' : Circuit} (h : (s.line l).circuit = some c) (ship : c'.ship = c.ship)
    (current : c'.current = c.current) (state : c.state.carries = false) : Lawful s (s.setCircuit l (some c')) :=
  .setCarrying s h ship current fun e => by rw [state] at e; cases e

/-- A circuit goes on without a current message. -/
theorem Lawful.setFree (s : State) {c c' : Circuit} (h : (s.line l).circuit = some c) (ship : c'.ship = c.ship)
    (current : c'.current = none) : Lawful s (s.setCircuit l (some c')) :=
  (Eases.setCircuit s h ship fun _ hj => by rw [current] at hj; cases hj).lawful

theorem Record.modTelex_kept (r : Record) (f : Telex → Telex) :
    (r.modTelex f).key = r.key ∧ (r.modTelex f).state = r.state ∧ (r.modTelex f).parts = r.parts := by
  unfold Record.modTelex
  cases hb : r.body <;> simp [Record.parts, Record.bulletin?, hb]

theorem Record.post_modTelex (r : Record) {f : Telex → Telex} (h : ∀ x, (f x).line = x.line ∧ (f x).ship = x.ship) :
    (r.modTelex f).post = r.post := by
  unfold Record.modTelex Record.post Record.telex?
  cases hb : r.body <;> simp [hb, h]

theorem Eases.setAckCount (s : State) (i : Slot) (ack : Nat) :
    Eases [] s (s.modRecord i fun r => r.modTelex fun t => { t with ackCount := ack }) := by
  refine .of_lines rfl (.modRecord s i (fun r => ?_) fun r m => ?_) rfl
  · obtain ⟨key, state, -⟩ := r.modTelex_kept fun t => { t with ackCount := ack }
    exact ⟨r.post_modTelex fun _ => ⟨rfl, rfl⟩, key, .inl state⟩
  · rw [Record.airs, Record.part?, (r.modTelex_kept _).2.2]
    exact id

section settled

variable (hc : (s.line l).circuit = some c)
include hc

theorem Lawful.settleCall (o : Outcome) (state : c.state = .calling) : Lawful s (s.settleCall l c o) := by
  unfold State.settleCall
  split
  · exact .setIdle s hc rfl rfl (by rw [state]; rfl)
  · split
    · exact .refl s
    · obtain ⟨dropped, gone⟩ := Eases.dropCounted (l := l) s fun n => { n with callsFailed := bump n.callsFailed }
      exact dropped.lawful.trans (.countAttempt _ _ _ gone)

theorem Lawful.settleAlign (o : Outcome) (state : c.state = .aligning) : Lawful s (s.settleAlign l c o) := by
  have idle : c.state.carries = false := by rw [state]; rfl
  unfold State.settleAlign
  split
  · exact .setIdle s hc rfl rfl idle
  · split
    · exact .setIdle s hc rfl rfl idle
    · exact .setIdle s hc rfl rfl idle

theorem Lawful.settleIdent (o : Outcome) (state : c.state = .identifying) : Lawful s (s.settleIdent l c o) := by
  have idle : c.state.carries = false := by rw [state]; rfl
  unfold State.settleIdent
  split
  · split
    · exact (Lawful.setFree (c' := c.linkedWith (s.lineConfig l).q0) s hc rfl rfl).trans
        (Eases.modCounters _ _).lawful
    · exact .setIdle s hc rfl rfl idle
  · split
    · exact .refl s
    · exact .setIdle s hc rfl rfl idle

theorem Lawful.notAcknowledged (isBlock : Bool) :
    Lawful s (s.notAcknowledged l c isBlock) := by
  unfold State.notAcknowledged
  dsimp only
  have counted : Eases [] s (if isBlock then s.modCounters l fun n => { n with repeats := bump n.repeats } else s) :=
    iteInduction (fun _ => .modCounters s _) fun _ => .refl s
  have same : ((if isBlock then s.modCounters l fun n => { n with repeats := bump n.repeats } else s).line l).circuit
      = some c := by
    split
    · rw [State.modCounters_circuit, hc]
    · exact hc
  generalize (if isBlock then s.modCounters l fun n => { n with repeats := bump n.repeats } else s) = v at counted same ⊢
  split
  · exact counted.lawful.trans (.setCarrying v same rfl rfl id)
  · split
    · exact counted.lawful.trans (.setCarrying v same rfl rfl fun _ => rfl)
    · refine (counted.lawful.trans (.setCarrying v same ?_ ?_ ?_)).trans (Lawful.loseCircuit _ true).1
      · rfl
      · rfl
      · exact id

theorem Lawful.deliver {i : Slot} (hi : c.current = some i) (clearAfter : Bool) :
    Lawful s (s.deliver l c i clearAfter) := by
  have finished := Lawful.endMessage hc hi .delivered (c' := { c with current := none }) rfl rfl
  have done := (finished.trans (Eases.modEntry (l := l) _ c.ship (f := fun e => { e with attempts := 0 }) (fun _ => rfl)
    fun _ => rfl).lawful).trans (Eases.endOfMessage (l := l) _ i).lawful
  have same : ((((((s.finishTelex i .delivered).setCircuit l (some { c with current := none })).modEntry l c.ship
      fun e => { e with attempts := 0 }).endOfMessage l i).line l)).circuit = some { c with current := none } := by
    rw [State.endOfMessage, State.modWindow, State.line_modLine_self]
    show ((State.modEntry _ l c.ship _).line l).circuit = _
    rw [State.modEntry, State.line_modLine_self]
    exact State.setCircuit_circuit _ _ _
  unfold State.deliver
  dsimp only
  split
  · exact done.trans (.setFree _ same rfl rfl)
  · exact done

theorem Lawful.blockGood {i : Slot} (hi : c.current = some i) : Lawful s (s.blockGood l c i) := by
  unfold State.blockGood
  split
  · exact .refl s
  · next r _ =>
    have acknowledged : ∀ ack, Lawful s ((s.modRecord i fun r => r.modTelex fun t => { t with ackCount := ack }
        ).setCircuit l (some c.acknowledged)) := fun ack =>
      (Eases.setAckCount s i ack).lawful.trans (.setCarrying _ hc rfl rfl id)
    dsimp only
    split
    · exact (acknowledged _).trans (.deliver (c := c.acknowledged) (State.setCircuit_circuit _ _ _) hi _)
    · exact acknowledged _

theorem Lawful.cutGood {i : Slot} (hi : c.current = some i) : Lawful s (s.cutGood l c i) :=
  (Lawful.endMessage (c' := { c.acknowledged with current := none, cut := false }) hc hi _ rfl rfl).trans
    (Eases.endOfMessage _ i).lawful

theorem Lawful.settleBlock (o : Outcome) : Lawful s (s.settleBlock l c o) := by
  unfold State.settleBlock
  split
  · split
    · exact .setCarrying s hc rfl rfl id
    · next i hi =>
      split
      · exact .cutGood hc hi
      · exact .blockGood hc hi
  · exact .notAcknowledged hc true

theorem Lawful.settleIdle (o : Outcome) : Lawful s (s.settleIdle l c o) := by
  unfold State.settleIdle
  split
  · exact .setCarrying s hc rfl rfl id
  · exact .notAcknowledged hc false

theorem Lawful.settleRephase (o : Outcome) : Lawful s (s.settleRephase l c o) := by
  unfold State.settleRephase
  split
  · exact .setCarrying s hc rfl rfl fun _ => rfl
  · split
    · exact .setCarrying s hc rfl rfl id
    · exact (Lawful.loseCircuit s true).1

theorem Lawful.settleCircuit (ended : Cycle) (o : Outcome) : Lawful s (s.settleCircuit l c ended o) := by
  unfold State.settleCircuit
  split
  case h_1 state => exact .settleCall hc o state
  case h_2 state => exact .settleAlign hc o state
  case h_3 state => exact .settleIdent hc o state
  case h_4 => exact .settleBlock hc o
  case h_5 => exact .settleIdle hc o
  case h_6 =>
    unfold Circuit.afterRephase
    split
    · exact .setCarrying s hc rfl rfl id
    · exact .setCarrying s hc rfl rfl id
  case h_7 => exact .settleRephase hc o
  case h_8 =>
    split
    · exact .refl s
    · exact .completeClear s c
  case h_9 => exact .refl s

end settled

end Sys2Proof.Machine

namespace Sys2Proof.Machine

variable {l : LineId} {s t u : State} {c : Circuit}

/-! ## A boundary up to its mode step -/

theorem Eases.modMode (s : State) {f : Line → Line} (circuit : ∀ x, (f x).circuit = x.circuit)
    (calls : ∀ x, (f x).callList = x.callList) (slots : ∀ x, (f x).bulletinSlots = x.bulletinSlots) :
    Eases [] s (s.modLine l f) :=
  .modFields s circuit calls fun x _ h => slots x ▸ h

/-- A change of a line apart from its circuit, its entries and its bulletin queues. -/
theorem Lawful.setMode (s : State) {f : Line → Line} (circuit : ∀ x, (f x).circuit = x.circuit)
    (calls : ∀ x, (f x).callList = x.callList) (slots : ∀ x, (f x).bulletinSlots = x.bulletinSlots) :
    Lawful s (s.modLine l f) :=
  (Eases.modMode s circuit calls slots).lawful

theorem Lawful.settle (s : State) (ended : Option Cycle) (o : Option Outcome) : Lawful s (s.settle l ended o) := by
  have taken : Lawful s (s.modLine l fun x => { x with outcome := none }) :=
    .setMode s (fun _ => rfl) (fun _ => rfl) fun _ => rfl
  unfold State.settle
  dsimp only
  split
  · exact taken
  · split
    · next i hi => exact taken.trans (Eases.completeSending _ (State.bulletinOnAir_spec hi).1).lawful
    · exact taken
  · exact taken.trans (Eases.endNotice _).lawful
  · split
    · exact taken
    · next c hc => exact taken.trans (.settleCircuit hc _ _)

theorem Lawful.silenceStep (s : State) (ended : Option Cycle) (o : Option Outcome) :
    Lawful s (s.silenceStep l ended o) := by
  unfold State.silenceStep
  split
  · exact .refl s
  · next c hc =>
    split
    · split
      · exact .setCarrying s hc rfl rfl id
      · split
        · exact .setCarrying s hc rfl rfl id
        · exact (Lawful.loseCircuit s true).1
    · exact .refl s

theorem Lawful.emptiedCheck (s : State) : Lawful s (s.emptiedCheck l) := by
  unfold State.emptiedCheck
  split
  · exact .refl s
  · next c hc =>
    split
    · split
      · exact ((Eases.dropCircuit s).then (.freeEntry _ _ (State.setCircuit_circuit _ _ _))).lawful
      · next state => exact .setIdle s hc rfl rfl (by rw [state]; rfl)
      · next state => exact .setIdle s hc rfl rfl (by rw [state]; rfl)
      all_goals exact .refl s
    · exact .refl s

theorem Eases.openPending (s : State) : Eases [] s (s.openPending l) := by
  unfold State.openPending
  split
  · split
    · exact .modWindow s _
    · exact .modWindow s _
  · exact .refl s

theorem Lawful.perBoundary (s : State) (before : List Entry) (ended : Option Cycle) (o : Option Outcome) :
    Lawful s (s.perBoundary l before ended o) := by
  have checked := ((Eases.decreaseHolds (l := l) s before).lawful.trans (.silenceStep (l := l) _ ended o)).trans
    (.emptiedCheck (l := l) _)
  exact checked.trans (((Eases.removeAllWithdrawn _).then (.modWindow _ _)).then (.openPending _)).lawful

theorem Lawful.worked (s : State) : Lawful s (s.worked l) := (Lawful.settle s _ _).trans (.perBoundary _ _ _ _)

theorem Lawful.stopCircuit (s : State) : Lawful s (s.stopCircuit l) := by
  unfold State.stopCircuit
  split
  · exact .refl s
  · next c hc =>
    obtain ⟨released, idle⟩ := Lawful.releaseCurrent (Eases.dropCircuit s) hc (State.setCircuit_circuit s l none)
    have ended : Lawful s (((s.setCircuit l none).releaseCurrent c).freeEmptyEntry l c.ship) :=
      released.trans (Eases.freeEmptyEntry _ _ idle).lawful
    split
    · exact ended
    · exact ended
    · exact ended
    · exact ended
    · exact .setCarrying s hc rfl rfl fun _ => rfl
    · exact .refl s
    · exact .completeClear s c

theorem Lawful.stopKeying (s : State) (m : Mode) : Lawful s (s.stopKeying l m) := by
  rw [State.stopKeying_eq]
  have stopped := ((Eases.bulletinStopped (l := l) s).then (.dropNotice (l := l) _)).lawful.trans (.stopCircuit (l := l) _)
  exact stopped.trans (.setMode (f := Line.stopped m) _ (fun _ => rfl) (fun _ => rfl) fun _ => rfl)

theorem Lawful.silenceCheck (s : State) : Lawful s (s.silenceCheck l) := by
  have stop : Lawful s (if s.silencedLine l then s.stopKeying l .silent else s) :=
    iteInduction (fun _ => .stopKeying s _) fun _ => .refl s
  unfold State.silenceCheck
  split
  · exact stop
  · exact stop
  · exact stop
  · exact stop
  · exact iteInduction (fun _ => .refl s) fun _ => .setMode s (fun _ => rfl) (fun _ => rfl) fun _ => rfl
  · exact .refl s
  · exact .refl s

theorem Lawful.actOrder (s : State) (order : LineOrder) : Lawful s (s.actOrder l order).1 := by
  cases order with
  | stop =>
    simp only [State.actOrder]
    split
    case h_6 | h_7 => exact .refl s
    all_goals exact .stopKeying s _
  | start =>
    exact iteInduction (motive := Lawful s) (fun _ => .setMode s (fun _ => rfl) (fun _ => rfl) fun _ => rfl)
      fun _ => .refl s
  | patternOn =>
    have keyed : Lawful s (s.modLine l fun x => { x with mode := .pattern, fillerRun := 0 }) :=
      .setMode s (fun _ => rfl) (fun _ => rfl) fun _ => rfl
    simp only [State.actOrder]
    split
    · exact keyed
    · exact .refl s
  | patternOff =>
    exact iteInduction (motive := Lawful s) (fun _ => .setMode s (fun _ => rfl) (fun _ => rfl) fun _ => rfl)
      fun _ => .refl s

theorem Lawful.modeStep (s : State) : Lawful s (s.modeStep l).1 := by
  have order : ∀ v : State, Lawful v (v.orderStep l).1 := fun v => by
    have cleared : Lawful v (v.modLine l fun x => { x with held := none }) :=
      .setMode v (fun _ => rfl) (fun _ => rfl) fun _ => rfl
    unfold State.orderStep
    split
    · exact .refl v
    · exact cleared.trans (.actOrder _ _)
  have keying : ∀ v : State, Lawful v (v.keyingCheck l) := fun v =>
    iteInduction (fun _ => .setMode v (fun _ => rfl) (fun _ => rfl) fun _ => rfl) fun _ => .refl v
  exact ((Lawful.silenceCheck s).trans (order _)).trans (keying _)

/-! ## The cycles of a circuit -/

/-- The part of a sending that begins (R74). -/
def Part.begun (p : Part) : Part := { p with state := .onAir, formStep := 1 }

theorem State.beginSending_fst (s : State) (l : LineId) (i : Slot) :
    (s.beginSending l i).1 = s.modPart i l Part.begun := by
  unfold State.beginSending
  dsimp only
  split <;> rfl

/-- A sending begins on a line with no bulletin on air (R71, R74). -/
theorem Lawful.beginSending (i : Slot) (h : s.bulletinOnAir l = none) : Lawful s (s.beginSending l i).1 := by
  rw [State.beginSending_fst]
  have telex : ∀ j r, s.record j = some r → r.post ≠ none →
      (s.modPart i l Part.begun).record j = some r := fun j r hr hp => by
    by_cases e : j = i
    · subst e
      rw [State.modPart, State.record_modRecord_self, hr]
      cases hb : r.body with
      | bulletin b => exact absurd (Record.post_bulletin hb) hp
      | telex x => simp [Record.modPart, Record.modBulletin, hb]
    · exact (s.record_modRecord_ne _ e).trans hr
  refine ⟨State.shipsOnce_of (fun _ => rfl) fun _ => id, fun _ hm => ?_, fun hs m a ha b hb aa ab => ?_⟩
  · obtain ⟨entries, current, claims⟩ := State.messages_of (s := s) (t := s.modPart i l Part.begun)
      (fun _ => rfl) (fun _ => rfl) telex hm
    exact State.messagesPlaced_iff.mpr ⟨entries, current, fun w hw =>
      claims _ _ ((State.messagesPlaced_iff.mp hm).2.2 w hw)⟩
  · have off := State.bulletinOnAir_none_iff.mp h
    have air : ∀ j, j ≠ i ∨ m ≠ l →
        (s.modPart i l Part.begun).partOnAir m j = s.partOnAir m j := by
      intro j hj
      rw [State.partOnAir_eq, State.partOnAir_eq, State.modPart]
      by_cases e : j = i
      · subst e
        rw [State.record_modRecord_self]
        cases hr : s.record j with
        | none => rfl
        | some r =>
          have hml : m ≠ l := hj.resolve_left fun c => c rfl
          simp only [Option.map_some, Option.any_some, Record.airs]
          rw [Record.part?_modPart r l m Part.begun fun _ => rfl]
          cases r.part? m <;> simp [hml]
      · rw [State.record_modRecord_ne _ _ e]
    by_cases hm : m = l
    · subst hm
      have only : ∀ j ∈ (s.line m).bulletinSlots,
          (s.modPart i m Part.begun).partOnAir m j = true → j = i :=
        fun j hj aj => by
          by_contra e
          rw [air j (.inl e), off j hj] at aj
          cases aj
      exact (only a ha aa).trans (only b hb ab).symm
    · rw [air a (.inr hm)] at aa
      rw [air b (.inr hm)] at ab
      exact hs m a ha b hb aa ab

/-- A call starts for an entry of a line without a circuit (R30). -/
theorem Lawful.startCall {e : Entry} (h : (s.line l).circuit = none) (he : e ∈ (s.line l).callList) :
    Lawful s (s.startCall l e.ship).1 := by
  have called : Lawful s (s.setCircuit l (some (Circuit.newCall e.ship))) := by
    have cores : ∀ m, ((s.setCircuit l (some (Circuit.newCall e.ship))).line m).cores = (s.line m).cores := fun m => by
      by_cases hm : m = l
      · subst hm; rw [State.setCircuit, State.line_modLine_self]; rfl
      · rw [State.setCircuit, State.line_modLine_ne _ _ hm]
    refine ⟨State.shipsOnce_of cores fun m hs d hd => ?_, fun _ hm => ?_,
      State.onePartOnAir_of (fun m j => ?_) fun _ _ => id⟩
    · rw [cores]
      by_cases hm : m = l
      · subst hm
        rw [State.setCircuit_circuit] at hd
        cases hd
        exact ⟨e.messages, Line.mem_cores.mpr ⟨e, he, rfl, rfl⟩⟩
      · rw [State.setCircuit, State.line_modLine_ne _ _ hm] at hd
        exact hs d hd
    · obtain ⟨entries, current, claims⟩ := State.messagesPlaced_iff.mp hm
      refine State.messagesPlaced_iff.mpr ⟨fun m p hp => entries m p (cores m ▸ hp), fun m d j hd hj => ?_, claims⟩
      by_cases hm : m = l
      · subst hm
        rw [State.setCircuit_circuit] at hd
        cases hd
        cases hj
      · rw [State.setCircuit, State.line_modLine_ne _ _ hm] at hd ⊢
        exact current m d j hd hj
    · by_cases hm : m = l
      · subst hm; rw [State.setCircuit, State.line_modLine_self]; exact id
      · rw [State.setCircuit, State.line_modLine_ne _ _ hm]; exact id
  exact called.trans (Eases.modEntry (f := fun e => { e with recalled := false }) _ e.ship (fun _ => rfl)
    fun _ => rfl).lawful

/-- The message a circuit sends next is its current one, or a READY one of its ship's entry (R36). -/
theorem State.nextMessage_cases {i : Slot} (h : s.nextMessage l c = some i) :
    c.current = some i ∨ (s.isReady i = true ∧ ∃ ms, (c.ship, ms) ∈ (s.line l).cores ∧ i ∈ ms) := by
  unfold State.nextMessage at h
  split at h
  · next j hj => exact .inl (hj.trans h)
  · obtain ⟨e, he, hi⟩ := Option.bind_eq_some_iff.mp h
    exact .inr ⟨List.find?_some hi, e.messages,
      Line.mem_cores.mpr ⟨e, List.mem_of_find?_eq_some he, Line.entry_ship he, rfl⟩, List.mem_of_find?_eq_some hi⟩

section circuit

variable (hc : (s.line l).circuit = some c)
include hc

theorem Lawful.handPark : Lawful s (s.handPark l c).1 := .setCarrying s hc rfl rfl fun _ => rfl

theorem Lawful.handOperation : Lawful s (s.handOperation l c).1 := by
  unfold State.handOperation
  split
  · exact .setCarrying s hc rfl rfl id
  · exact .refl s
  · exact .setCarrying s hc rfl rfl id
  · split
    · exact .setCarrying s hc rfl rfl id
    · exact .refl s
  · exact .setCarrying s hc rfl rfl id
  · exact .refl s
  · exact .refl s

theorem Lawful.handBlock {i : Slot} (h : s.nextMessage l c = some i) : Lawful s (s.handBlock l c i).1 := by
  unfold State.handBlock
  split
  · exact .refl s
  · next r hr =>
    dsimp only
    generalize s.formBlock c r = f
    refine Lawful.trans ?_ (Eases.modCounters _ _).lawful
    have record : ∀ j r0, s.record j = some r0 →
        (s.modRecord i fun r => if r.state = .ready then { r with state := .onAir } else r).record j
          = some (if j = i ∧ r0.state = .ready then { r0 with state := .onAir } else r0) := fun j r0 hr0 => by
      by_cases e : j = i
      · subst e; rw [State.record_modRecord_self, hr0]; simp
      · rw [State.record_modRecord_ne _ _ e, hr0, if_neg fun c => e c.1]
    have line : ∀ m d, m ≠ l → (((s.modRecord i fun r => if r.state = .ready then { r with state := .onAir } else r
        ).setCircuit l d).line m) = s.line m := fun m d hm => State.line_modLine_ne _ _ hm
    have self : ∀ d, ((s.modRecord i fun r => if r.state = .ready then { r with state := .onAir } else r
        ).setCircuit l d).line l = { s.line l with circuit := d } := fun d => State.line_modLine_self ..
    have cores : ∀ d m, (((s.modRecord i fun r => if r.state = .ready then { r with state := .onAir } else r
        ).setCircuit l d).line m).cores = (s.line m).cores := fun d m => by
      by_cases hm : m = l
      · subst hm; rw [self]; rfl
      · rw [line m d hm]
    refine ⟨State.shipsOnce_of (cores _) fun m hs d hd => ?_, fun _ hm => ?_,
      State.onePartOnAir_of (fun m j => ?_) fun m j ha => ?_⟩
    · rw [cores]
      by_cases hm : m = l
      · subst hm
        rw [self] at hd
        cases hd
        exact hs c hc
      · exact hs d (line m _ hm ▸ hd)
    · obtain ⟨entries, current, claims⟩ := State.messagesPlaced_iff.mp hm
      have works : ∀ r0 : Record, r0.state.works = true → ∀ j,
          (if j = i ∧ r0.state = .ready then { r0 with state := .onAir } else r0 : Record).state.works = true :=
        fun r0 h0 j => by split <;> [rfl; exact h0]
      have stays : ∀ (r0 : Record) j,
          (if j = i ∧ r0.state = .ready then { r0 with state := .onAir } else r0 : Record).post = r0.post :=
        fun r0 j => by split <;> rfl
      refine State.messagesPlaced_iff.mpr ⟨fun m p hp => ?_, fun m d j hd hj => ?_, fun w hw => ?_⟩
      · rw [cores] at hp
        refine ⟨(entries m p hp).1, fun j hj => ?_⟩
        obtain ⟨r0, hr0, post, w0⟩ := (entries m p hp).2 j hj
        exact ⟨_, record j r0 hr0, (stays r0 j).trans post, works r0 w0 j⟩
      · rw [cores]
        have onAir : ∀ j, s.isOnAir j = true →
            (s.modRecord i fun r => if r.state = .ready then { r with state := .onAir } else r).isOnAir j = true :=
          fun j hj => by
            obtain ⟨r0, hr0, h0⟩ := Option.any_eq_true _ _ |>.mp hj
            rw [State.isOnAir, record j r0 hr0, if_neg fun c => by rw [c.2] at h0; cases h0]
            exact h0
        by_cases hm' : m = l
        · subst hm'
          rw [self] at hd
          cases hd
          cases hj
          rcases State.nextMessage_cases h with cur | ⟨ready, ms, hms, him⟩
          · obtain ⟨air, -, entry⟩ := current m c i hc cur
            exact ⟨onAir i air, rfl, entry⟩
          · refine ⟨?_, rfl, ms, hms, him⟩
            obtain ⟨r0, hr0, h0⟩ := Option.any_eq_true _ _ |>.mp ready
            show State.isOnAir (s.modRecord i _) i = true
            rw [State.isOnAir, record i r0 hr0, if_pos ⟨rfl, of_decide_eq_true h0⟩]
            rfl
        · rw [line m _ hm'] at hd
          obtain ⟨air, rest⟩ := current m d j hd hj
          exact ⟨onAir j air, rest⟩
      · obtain ⟨r0, ship, hr0, key, claiming, post⟩ := claims w hw
        refine ⟨r0, ship, (record _ r0 hr0).trans ?_, key, claiming, post⟩
        rw [if_neg fun c => by rw [c.2] at claiming; cases claiming]
    · by_cases hm : m = l
      · subst hm; rw [self]; exact id
      · rw [line m _ hm]; exact id
    · refine RecordsKept.partOnAir (RecordsKept.of_left (i := i) (fun k => ?_) fun j hj => ?_) ha (g := [i])
      · exact State.recordsFrom_modRecord s i fun r => by split <;> exact ⟨rfl, id⟩
      · exact s.record_modRecord_ne _ hj

theorem Lawful.handCut : Lawful s (s.handCut l c).1 := by
  unfold State.handCut
  dsimp only
  refine Lawful.trans (.setCarrying s hc ?_ ?_ fun _ => rfl) (Eases.modCounters (l := l) _ _).lawful
  all_goals dsimp only; split <;> rfl

/-- A circuit without ready traffic has no current message, and is cleared or lingers (R40). -/
theorem Lawful.handIdle {d : Circuit} (ship : d.ship = c.ship) (free : d.current = none) :
    Lawful s (s.handIdle l d).1 := by
  unfold State.handIdle
  split
  · exact .setFree s hc ship free
  · exact .setFree s hc ship free

omit hc in
theorem State.current_of_nextMessage (h : s.nextMessage l c = none) : c.current = none := by
  unfold State.nextMessage at h
  split at h
  · cases h
  · next hn => exact hn

theorem Lawful.handTraffic : Lawful s (s.handTraffic l c).1 := by
  unfold State.handTraffic
  split
  · exact .handCut hc
  · split
    · next i hi => exact .handBlock hc hi
    · next hn =>
      have free := State.current_of_nextMessage hn
      split
      · exact .handIdle hc rfl free
      · exact .handIdle hc rfl free

end circuit

/-! ## The sources of the interleaver -/

theorem Lawful.modArbiter (s : State) (f : Arbiter → Arbiter) : Lawful s (s.modArbiter l f) :=
  (Eases.modArbiter s f).lawful

theorem Lawful.counted {p : State × Cycle} (h : Lawful s p.1) : Lawful s (countedTurn l p).1 := by
  unfold countedTurn State.countTurn
  dsimp only
  exact h.trans (.modArbiter _ _)

theorem Lawful.handNotice (s : State) : Lawful s (s.handNotice l).1 := by
  unfold State.handNotice
  dsimp only
  exact (Eases.modWindow s _).lawful

theorem Lawful.handKeep (s : State) : Lawful s (s.handKeep l).1 := by
  unfold State.handKeep
  dsimp only
  exact (Eases.modCounters s _).lawful

theorem State.modArbiter_circuit (s : State) (l : LineId) (f : Arbiter → Arbiter) :
    ((s.modArbiter l f).line l).circuit = (s.line l).circuit := by
  rw [State.modArbiter, State.line_modLine_self]

theorem Lawful.serveFiller (s : State) : Lawful s (s.serveFiller l).1 := by
  unfold State.serveFiller
  dsimp only
  split
  · dsimp only
    exact .setMode s (fun _ => rfl) (fun _ => rfl) fun _ => rfl
  · split
    · dsimp only
      exact .setMode s (fun _ => rfl) (fun _ => rfl) fun _ => rfl
    · exact .refl s

theorem Lawful.serveFree (h : s.bulletinOnAir l = none) : Lawful s (s.serveFree l).1 := by
  unfold State.serveFree
  split
  · exact .beginSending _ h
  · exact .serveFiller s

theorem Lawful.serveCall (h : s.bulletinOnAir l = none) : Lawful s (s.serveCall l).1 := by
  unfold State.serveCall
  split
  · next e he =>
    unfold State.callable? at he
    split at he
    · next hc => exact .startCall hc (List.mem_of_find?_eq_some he)
    · cases he
  · exact .serveFree h

theorem Lawful.serveTraffic (h : s.bulletinOnAir l = none) : Lawful s (s.serveTraffic l).1 := by
  unfold State.serveTraffic
  split
  · next c hc =>
    split
    · exact .counted (.handTraffic hc)
    · exact .serveCall h
  · exact .serveCall h

theorem Lawful.beginUnit (h : s.bulletinOnAir l = none) (a : WindowAnswer) : Lawful s (s.beginUnit l a).1 := by
  cases a with
  | part i => exact .beginSending i h
  | notice => exact .handNotice s
  | nothing => exact .serveTraffic h

theorem Lawful.readTable (h : s.bulletinOnAir l = none) (hc : (s.line l).circuit = some c) :
    Lawful s (s.readTable l c).1 := by
  have moved : ∀ f, Eases [] s (s.modArbiter l f) := fun f => .modArbiter s f
  have circuit : ∀ f, ((s.modArbiter l f).line l).circuit = some c := fun f => (s.modArbiter_circuit l f).trans hc
  have circuit2 : ∀ f g, (((s.modArbiter l f).modArbiter l g).line l).circuit = some c := fun f g =>
    (State.modArbiter_circuit _ l g).trans (circuit f)
  have quiet : ∀ f g, ((s.modArbiter l f).modArbiter l g).bulletinOnAir l = none := fun f g =>
    (Eases.modArbiter _ g).bulletinOnAir_none ((moved f).bulletinOnAir_none h)
  unfold State.readTable
  dsimp only
  split
  · exact ((moved _).lawful.trans (.modArbiter _ _)).trans (.counted (.handTraffic (circuit2 _ _)))
  · split
    · exact ((moved _).then (.closeWindow _)).lawful.trans
        (.serveTraffic (((moved _).then (.closeWindow _)).bulletinOnAir_none h))
    · split
      · exact ((moved _).lawful.trans (.modArbiter _ _)).trans (.handPark (circuit2 _ _))
      · exact ((moved _).lawful.trans (.modArbiter _ _)).trans (.beginUnit (quiet _ _) _)

theorem Lawful.askWithoutCircuit (h : s.bulletinOnAir l = none) : Lawful s (s.askWithoutCircuit l).1 := by
  have moved : ∀ f, Eases [] s (s.modArbiter l f) := fun f => .modArbiter s f
  unfold State.askWithoutCircuit
  dsimp only
  split
  · exact ((moved _).then (.closeWindow _)).lawful.trans
      (.serveCall (((moved _).then (.closeWindow _)).bulletinOnAir_none h))
  · exact (moved _).lawful.trans (.beginUnit ((moved _).bulletinOnAir_none h) _)

theorem Lawful.unitOfTurn (h : s.bulletinOnAir l = none) : Lawful s (s.unitOfTurn l).1 := by
  unfold State.unitOfTurn
  split
  · exact (Eases.closeWindow s).lawful.trans (.serveTraffic ((Eases.closeWindow s).bulletinOnAir_none h))
  · exact (Lawful.modArbiter s _).trans (.beginUnit ((Eases.modArbiter s _).bulletinOnAir_none h) _)

theorem Lawful.unitBoundary (h : s.bulletinOnAir l = none) (hc : (s.line l).circuit = some c) :
    Lawful s (s.unitBoundary l c).1 := by
  unfold State.unitBoundary
  split
  · exact .handTraffic hc
  · split
    · exact (Lawful.modArbiter s _).trans (.handKeep _)
    · exact .readTable h hc

theorem Lawful.serveWindow (h : s.bulletinOnAir l = none) : Lawful s (s.serveWindow l).1 := by
  unfold State.serveWindow
  dsimp only
  split
  · split
    · exact .serveTraffic h
    · split
      · exact .serveTraffic h
      · exact .unitOfTurn h
    · split
      · exact .askWithoutCircuit h
      · next c hc =>
        split
        · exact .unitBoundary h hc
        · exact .serveTraffic h
  · exact .serveTraffic h

/-- With no cut-in and no unit on air, no bulletin is. -/
theorem State.bulletinOnAir_of_none (cutIn : s.cutInOnAir l = none) (unit : s.unitOnAir l = none) :
    s.bulletinOnAir l = none := by
  rw [State.bulletinOnAir, cutIn]
  exact unit

theorem Lawful.serveUnit (h : s.cutInOnAir l = none) : Lawful s (s.serveUnit l).1 := by
  unfold State.serveUnit
  split
  · exact (Eases.continueSending s _).lawful
  · next hu =>
    split
    · exact .serveWindow (State.bulletinOnAir_of_none h hu)
    · exact .handNotice s

theorem Lawful.prepareCutIn (h : s.cutInOnAir l = none) (i : Slot) : Lawful s (s.prepareCutIn l i).1 := by
  have ended : Eases [] s (s.modArbiter l fun a => { a.endTurn with keepOffered := false }) := .modArbiter s _
  have sameAir : (s.modArbiter l fun a => { a.endTurn with keepOffered := false }).cutInOnAir l = none := by
    rw [← h, State.cutInOnAir, State.modArbiter, State.line_modLine_self]
    rfl
  unfold State.prepareCutIn
  dsimp only
  generalize (s.modArbiter l fun a => { a.endTurn with keepOffered := false }) = v at ended sameAir ⊢
  refine ended.lawful.trans ?_
  split
  · exact (Eases.abandonSending v _).lawful
  · next hu =>
    have quiet := (Eases.dropNotice (l := l) v).bulletinOnAir_none (State.bulletinOnAir_of_none sameAir hu)
    refine (Eases.dropNotice (l := l) v).lawful.trans ?_
    generalize v.dropNotice l = w at quiet ⊢
    split
    · exact .beginSending _ quiet
    · next c hc =>
      split
      · exact (Eases.dropCircuit w).lawful.trans (.beginSending _ ((Eases.dropCircuit w).bulletinOnAir_none quiet))
      · split
        · exact .handPark hc
        · next idle =>
          refine .handIdle hc rfl (State.current_of_nextMessage (s := w) (l := l) ?_)
          simpa [State.readyTraffic] using idle
      all_goals exact .beginSending _ quiet

theorem Lawful.serveCutIn (s : State) : Lawful s (s.serveCutIn l).1 := by
  unfold State.serveCutIn
  split
  · exact (Eases.continueSending s _).lawful
  · next h =>
    split
    · exact .prepareCutIn h _
    · exact .serveUnit h

/-- The bulletin whose broken end is due is a bulletin on air (R109). -/
theorem State.brokenEndDue_spec {i : Slot} (h : s.brokenEndDue l = some i) : s.bulletinOnAir l = some i := by
  unfold State.brokenEndDue at h
  split at h
  · next j hj =>
    split at h
    · rw [hj, h]
    · cases h
  · cases h

theorem Lawful.serveCut (s : State) : Lawful s (s.serveCut l).1 := by
  unfold State.serveCut
  split
  · next c hc => exact .counted (.handCut (Option.filter_eq_some_iff.mp hc).1)
  · split
    · next i hi =>
      have air := (State.bulletinOnAir_spec (State.brokenEndDue_spec hi)).2
      exact (Eases.breakSending s fun r hr => State.post_of_partOnAir air hr).lawful
    · exact .serveCutIn s

theorem Lawful.serveOperation (s : State) : Lawful s (s.serveOperation l).1 := by
  unfold State.serveOperation
  split
  · next c hc => exact .counted (.handOperation (Option.filter_eq_some_iff.mp hc).1)
  · unfold State.serveKeep
    split
    · exact .handKeep s
    · exact .serveCut s

theorem Lawful.choice (s : State) : Lawful s (s.choice l).1 := by
  unfold State.choice
  split
  · exact .refl s
  · exact .refl s
  · exact .refl s
  · exact .refl s
  · dsimp only
    exact .setMode s (fun _ => rfl) (fun _ => rfl) fun _ => rfl
  · unfold State.restCheck
    split
    · dsimp only
      exact .setMode s (fun _ => rfl) (fun _ => rfl) fun _ => rfl
    · exact .refl s
  · obtain ⟨f, hf⟩ := s.endTests_eq l
    have tested : Lawful s (s.endTests l) := hf ▸ .modArbiter s f
    unfold State.chooseCycle
    dsimp only
    split
    · exact tested.trans (.serveOperation _)
    · exact (tested.trans (.serveOperation _)).trans (.setMode _ (fun _ => rfl) (fun _ => rfl) fun _ => rfl)

/-! ## The port, and the end of a boundary -/

theorem RecordsKept.tellDiscard (s : State) (p : Payload) : RecordsKept [] s (s.tellDiscard p) := by
  unfold State.tellDiscard
  split
  · split
    · exact .modRecord s _ (fun _ => ⟨rfl, rfl, .inl rfl⟩) fun _ _ => id
    · exact .refl s
  · exact .refl s

theorem Eases.offerFrame (s : State) (f : Frame) : Eases [] s (s.offerFrame f) := by
  refine .of_lines (s.offerFrame_frame f).2.1 ?_ (State.fixed_fields (s.fixed_offerFrame f)).2.2.2.2.2.2.2
  rcases s.offerFrame_cases f with ⟨-, e⟩ | ⟨-, -, e⟩ | ⟨j, q, -, -, -, e⟩
  · rw [e]; exact .of_records rfl
  · rw [e]; exact .trans (t := s.bumpDiscarded) (g := []) (.of_records rfl) (.tellDiscard _ _)
  · rw [e]
    exact .trans (t := { s.bumpDiscarded with queue := enqueue f (s.queue.eraseIdx j) }) (g := []) (.of_records rfl)
      (.tellDiscard _ _)

theorem Eases.handReport (s : State) : Eases [] s s.handReport := by
  refine .of_lines s.handReport_frame.2.1 ?_ (State.fixed_fields s.fixed_handReport).2.2.2.2.2.2.2
  unfold State.handReport
  split
  · exact .refl s
  · next p rest _ =>
    split
    · split
      · exact .of_records rfl
      · next r _ =>
        exact .trans (t := { s with reports := rest, queue := enqueue (reportFrame s r p.item) s.queue }) (g := [])
          (.of_records rfl) (.freeIfSpent _ _)
    · exact .refl s

theorem Eases.handReports (s : State) : Eases [] s s.handReports :=
  State.handReports_keeps (P := Eases [] s) (fun t h => h.then (.handReport t)) s (.refl s)

theorem Eases.answer (s : State) (m : Mode) (order : Option (Station × OrderResult)) :
    Eases [] s (s.answer l m order) := by
  have taken : Eases [] s (s.modLine l fun x => { x with silenceAnswer := none }) :=
    .modMode s (fun _ => rfl) (fun _ => rfl) fun _ => rfl
  have silence : Eases [] s (match (s.line l).silenceAnswer with
      | none => s
      | some dest => (s.modLine l fun x => { x with silenceAnswer := none }).offerLineState l dest m .accepted) := by
    split
    · exact .refl s
    · exact taken.then (.offerFrame _ _)
  unfold State.answer
  dsimp only
  split
  · exact silence
  · exact silence.then (.offerFrame _ _)

/-- A boundary keeps the laws of R25, R71 and R133. -/
theorem Lawful.boundary (s : State) : Lawful s (s.boundary l) := by
  have chosen := ((Lawful.worked (l := l) s).trans (.modeStep (l := l) _)).trans (.choice (l := l) _)
  unfold State.boundary
  dsimp only
  exact chosen.trans (((Eases.handReports _).then (.answer _ _ _)).lawful.trans
    (.setMode _ (fun _ => rfl) (fun _ => rfl) fun _ => rfl))

end Sys2Proof.Machine

namespace Sys2Proof.Machine

variable {l : LineId} {s t u : State} {c : Circuit}

/-! ## The store and the port -/

theorem Eases.foldl {α : Type} {f : State → α → State} (h : ∀ t a, Eases [] t (f t a)) (as : List α) :
    ∀ s : State, Eases [] s (as.foldl f s) := by
  induction as with
  | nil => exact fun s => .refl s
  | cons a rest ih => exact fun s => (h s a).then (ih _)

/-- A record changed in fields the laws do not speak of, its text and its pages among them. -/
theorem Eases.modRecord (s : State) (i : Slot) {f : Record → Record}
    (h : ∀ r, (f r).post = r.post ∧ (f r).key = r.key ∧ (f r).state = r.state)
    (air : ∀ r m, (f r).airs m = true → r.airs m = true) : Eases [] s (s.modRecord i f) :=
  .of_lines rfl (.modRecord s i (fun r => ⟨(h r).1, (h r).2.1, .inl (h r).2.2⟩) air) rfl

theorem Eases.endWork (s : State) {i : Slot} (h : ∀ r, s.record i = some r → r.post = none) :
    Eases [] s (s.endWork i) :=
  .of_lines (s.endWork_lines i) (.endWork s h) (State.fixed_fields (s.fixed_endWork i)).2.2.2.2.2.2.2

theorem Eases.retireIfDone (s : State) (i : Slot) : Eases [] s (s.retireIfDone i) :=
  (PartWork.retireIfDone (l := 0) s i).eases (.retireIfDone s i) (by simp)

theorem Eases.leaveQueues (s : State) (i : Slot) : Eases [] s (s.leaveQueues l i) :=
  (PartWork.leaveQueues s i).eases (.of_records rfl) rfl

/-- A bulletin record whose parts change to none that airs newly. -/
theorem Eases.modBulletin (s : State) (i : Slot) {f : Bulletin → Bulletin}
    (air : ∀ (r : Record) m, (r.modBulletin f).airs m = true → r.airs m = true) :
    Eases [] s (s.modRecord i fun r => r.modBulletin f) :=
  .modRecord s i (fun r => ⟨r.post_modBulletin f, r.modBulletin_kept f⟩) air

theorem Record.airs_noParts (r : Record) (m : LineId) :
    (r.modBulletin fun b => { b with parts := [] }).airs m = false := by
  unfold Record.airs Record.part? Record.parts Record.bulletin? Record.modBulletin
  cases hb : r.body <;> simp [hb]

theorem State.unaired_of_state (hm : s.messagesPlaced) {i : Slot}
    (h : ∀ r, s.record i = some r → r.state ≠ .onAir) : s.unaired i := by
  intro m c hc hi
  obtain ⟨r, hr, air⟩ := Option.any_eq_true _ _ |>.mp ((State.messagesPlaced_iff.mp hm).2.1 m c i hc hi).1
  exact h r hr (of_decide_eq_true air)

theorem LawfulWhen.lawful {p : Prop} (h : LawfulWhen p s t) (hp : s.messagesPlaced → p) : Lawful s t :=
  (Lawful.refl s).when h hp

/-- A telex message that is neither claimed nor on air is finished (R149). -/
theorem Lawful.finishTelex {i : Slot} {r : Record} (hr : s.record i = some r) (claiming : r.state ≠ .claiming)
    (onAir : r.state ≠ .onAir) (item : ReportItem) : Lawful s (s.finishTelex i item) := by
  have state : ∀ r', s.record i = some r' → r' = r := fun r' hr' => Option.some.inj (hr'.symm.trans hr)
  exact (LawfulWhen.finishTelex s i item).lawful fun hm =>
    ⟨State.unaired_of_state hm fun r' hr' => state r' hr' ▸ onAir, fun r' hr' => state r' hr' ▸ claiming⟩

theorem Lawful.endLoading {i : Slot} {r : Record} (hr : s.record i = some r) (loading : r.state = .loading)
    (item : ReportItem) : Lawful s (s.endLoading i item) := by
  unfold State.endLoading
  rw [hr]
  dsimp only
  split
  · exact .finishTelex hr (by rw [loading]; nofun) (by rw [loading]; nofun) item
  · next b hb =>
    have bulletin : ∀ r', s.record i = some r' → r'.post = none := fun r' hr' => by
      rw [Option.some.inj (hr'.symm.trans hr)]
      exact Record.post_bulletin hb
    have left : Eases [] s ((s.endWork i).leaveAllQueues i) :=
      (Eases.endWork s bulletin).then (.foldl (fun t l => .leaveQueues t i) lineIds _)
    have emptied : Eases [] s ((s.endWork i).removeParts i) :=
      left.then (.modBulletin _ i fun r m h => by rw [Record.airs_noParts] at h; cases h)
    exact (emptied.then (.addReport _ i item)).lawful

theorem Eases.dropTaken (s : State) (i : Slot) : Eases [i] s (s.dropTaken i) where
  lines m := by
    rw [← State.line_congr (show (s.returnPages i).lines = s.lines by rw [State.returnPages_frame]) m]
    exact State.leaveEntry_lines _ i m
  records := by
    refine .of_left (fun m => ?_) fun j hj => ?_
    · exact State.recordsFrom_trans (State.recordsFrom_trans (PartWork.returnPages (l := m) s i).records
        (LineWork.leaveEntry (l := m) _ rfl).records) (State.recordsFrom_free _ i)
    · show (((s.returnPages i).leaveEntry i).setRecord i none).record j = s.record j
      rw [State.record_setRecord_ne _ _ hj, State.record_congr (State.leaveEntry_frame _ i).1,
        State.returnPages_record_ne _ hj]
  claims w hw := by
    refine ⟨w, ?_, rfl, rfl⟩
    have same : (s.dropTaken i).claims = s.claims := by
      show ((s.returnPages i).leaveEntry i).claims = s.claims
      rw [(State.leaveEntry_frame _ i).2, State.returnPages_frame]
    rwa [same] at hw

/-- A loading message is dropped (R163, R164). -/
theorem Lawful.dropTaken {i : Slot} {r : Record} (hr : s.record i = some r) (loading : r.state = .loading) :
    Lawful s (s.dropTaken i) := by
  have h := Eases.dropTaken s i
  have state : ∀ r', s.record i = some r' → r'.state = .loading := fun r' hr' => by
    rw [Option.some.inj (hr'.symm.trans hr), loading]
  refine ⟨h.shipsOnce, fun _ hm => h.messagesPlaced_left hm ?_ (fun m c hc hi => ?_)
    (fun r' hr' => by rw [state r' hr']; nofun), h.onePartOnAir⟩
  · exact State.left_of_placed hm (by rw [State.returnPages_frame]) fun r' hr' =>
      ⟨{ r' with pageList := [], reserved := [] },
        by rw [State.returnPages_some hr', State.record_setRecord_self], rfl⟩
  · obtain ⟨c0, hc0, -, cur, -⟩ := (h.lines m).circuit c hc
    exact State.unaired_of_state hm (fun r' hr' => by rw [state r' hr']; nofun) m c0 hc0 (cur i hi).1

theorem Lawful.takeText (s : State) (h : Header) (key : Key) (seq : Nat) (chunk : List Byte) :
    Lawful s (s.takeText h key seq chunk) := by
  have load : ∀ i r, s.record i = some r → r.state = .loading → Lawful s (s.loadChunk i r seq chunk) := by
    intro i r hr loading
    have stored : Eases [] s (s.storeChunk i r chunk) := by
      generalize hu : ({ s with
        text := writeChars (r.withChunk chunk.length).pageList s.text (r.loaded + 1) chunk } : State) = u
      have hr' : u.record i = some r := by subst hu; exact hr
      have same : s.storeChunk i r chunk = u.modRecord i fun r0 =>
          if r0.state = .loading then r0.withChunk chunk.length else r0 := by
        rw [State.modRecord, hr', Option.map_some, if_pos loading]
        subst hu
        rfl
      have text : Eases [] s u := by subst hu; exact .of_eq rfl rfl rfl
      rw [same]
      refine text.then (.of_lines rfl (.modRecord u i (fun r0 => ?_) fun r0 m => ?_) rfl)
      · split
        · next h0 =>
          refine ⟨rfl, rfl, .inr ⟨by rw [h0]; rfl, by rw [h0]; nofun, ?_⟩⟩
          unfold Record.withChunk
          dsimp only
          split
          · rfl
          · rw [h0]; rfl
        · exact ⟨rfl, rfl, .inl rfl⟩
      · split <;> exact id
    unfold State.loadChunk
    split
    · exact .refl s
    · split
      · exact stored.lawful
      · exact (Lawful.endLoading hr loading _).trans (Eases.handReports _).lawful
  unfold State.takeText
  split
  · exact .refl s
  · next i _ =>
    split
    · exact .refl s
    · next r hr =>
      split
      · next loading =>
        split
        · split
          · exact load i r hr loading
          · exact iteInduction (fun _ => .refl s) fun _ => .dropTaken hr loading
        · exact iteInduction (fun _ => load i r hr loading) fun _ => .refl s
      · exact .refl s

/-! ### The end of a claim -/

/-- A slot holds no record, or the CLAIMING record of a key. -/
def State.claimOnly (s : State) (key : Key) (i : Slot) : Prop :=
  ∀ r, s.record i = some r → r.state = .claiming ∧ r.key = key

theorem State.abortClaim_claimEnded (s : State) (w : ClaimWindow) : claimEnded s (s.abortClaim w) w := by
  refine State.claimEnded_endClaim rfl (if w.noted then s else s.removeClaims w.key) ?_
  split <;> rfl

/-- A claim ended without a take (R158): no window is left on the slot that is freed. -/
theorem claimEnded.lawful {w : ClaimWindow} (h : claimEnded s t w) : LawfulWhen (s.claimOnly w.key w.slot) s t := by
  obtain ⟨freed, -, others, claims, frame⟩ := h
  have eases : Eases [w.slot] s t := by
    refine ⟨fun m => ?_, .of_left (fun m j r' hr' => ?_) others, fun v hv => ?_⟩
    · rw [show t.line m = s.line m from State.line_congr (by rw [frame]) m]
      exact (Line.Eases.refl _).weaken _
    · have hj : j ≠ w.slot := fun e => by rw [e, freed] at hr'; cases hr'
      exact ⟨r', (others j hj).symm.trans hr', rfl, id⟩
    · rw [claims] at hv
      exact ⟨v, List.mem_of_mem_filter hv, rfl, rfl⟩
  refine ⟨eases.shipsOnce, fun _ hm claim => eases.messagesPlaced hm (fun m p hp j hj e => ?_)
    (fun m d j hd hj e => ?_) fun v hv e => ?_, eases.onePartOnAir⟩
  · obtain ⟨p0, hp0, -, sub⟩ := (eases.lines m).entries p hp
    obtain ⟨r, hr, -, works⟩ := ((State.messagesPlaced_iff.mp hm).1 m p0 hp0).2 j (sub.subset hj)
    rw [List.mem_singleton.mp e] at hr
    rw [(claim r hr).1] at works
    cases works
  · obtain ⟨d0, hd0, -, cur, -⟩ := (eases.lines m).circuit d hd
    rw [List.mem_singleton.mp e] at hj
    exact State.unaired_of_state hm (fun r hr => by rw [(claim r hr).1]; nofun) m d0 hd0 (cur _ hj).1
  · rw [claims] at hv
    obtain ⟨r, -, hr, key, -⟩ := (State.messagesPlaced_iff.mp hm).2.2 v (List.mem_of_mem_filter hv)
    rw [List.mem_singleton.mp e] at hr
    have other := (List.mem_filter.mp hv).2
    rw [← key, (claim r hr).2] at other
    simp at other

theorem LawfulWhen.abortClaim (s : State) (w : ClaimWindow) :
    LawfulWhen (s.claimOnly w.key w.slot) s (s.abortClaim w) :=
  (s.abortClaim_claimEnded w).lawful

theorem State.claimOnly_of_claim (hm : s.messagesPlaced) {w : ClaimWindow} (hw : w ∈ s.claims) :
    s.claimOnly w.key w.slot := by
  obtain ⟨r, -, hr, key, claiming, -⟩ := (State.messagesPlaced_iff.mp hm).2.2 w hw
  intro r' hr'
  rw [Option.some.inj (hr'.symm.trans hr)]
  exact ⟨claiming, key⟩

theorem LawfulWhen.abortClaims (ws : List ClaimWindow) : ∀ s : State,
    LawfulWhen (∀ w ∈ ws, s.claimOnly w.key w.slot) s (ws.foldl (fun t w => t.abortClaim w) s) := by
  induction ws with
  | nil => exact fun s => ⟨id, fun _ hm _ => hm, id⟩
  | cons w ws ih =>
    intro s
    have first := LawfulWhen.abortClaim s w
    have rest := ih (s.abortClaim w)
    refine ⟨rest.ships ∘ first.ships, fun hs hm claims => ?_, rest.air ∘ first.air⟩
    refine rest.messages (first.ships hs) (first.messages hs hm (claims w List.mem_cons_self)) fun v hv r hr => ?_
    obtain ⟨freed, -, others, -⟩ := s.abortClaim_claimEnded w
    have hj : v.slot ≠ w.slot := fun e => by rw [e, freed] at hr; cases hr
    exact claims v (List.mem_cons_of_mem _ hv) r ((others _ hj).symm.trans hr)

theorem Lawful.abortAllClaims (s : State) : Lawful s s.abortAllClaims :=
  ((LawfulWhen.abortClaims s.claims s).lawful fun hm _ hw => State.claimOnly_of_claim hm hw).trans
    (Eases.handReports _).lawful

theorem Lawful.endClaim {w : ClaimWindow} (hw : w ∈ s.claims) : Lawful s (s.endClaim w.key w.slot) :=
  (State.claimEnded_endClaim (s := s) (w := w) rfl s rfl).lawful.lawful fun hm => State.claimOnly_of_claim hm hw

theorem Lawful.abortClaim {w : ClaimWindow} (hw : w ∈ s.claims) : Lawful s (s.abortClaim w) :=
  (LawfulWhen.abortClaim s w).lawful fun hm => State.claimOnly_of_claim hm hw

/-! ### Withdrawals, offers and takes -/

theorem Lawful.withdrawRecord {i : Slot} {r : Record} (hr : s.record i = some r) : Lawful s (s.withdrawRecord i r) := by
  have marked : Eases [] s (s.modRecord i fun r => { r with withdrawMark := true }) :=
    .modRecord s i (fun _ => ⟨rfl, rfl, rfl⟩) fun _ _ => id
  have finished : r.state ≠ .claiming → r.state ≠ .onAir →
      Lawful s (s.finishTelex i (.withdrawn false)).handReports := fun h1 h2 =>
    (Lawful.finishTelex hr h1 h2 _).trans (Eases.handReports _).lawful
  unfold State.withdrawRecord
  split
  · split
    · next claiming =>
      let w : ClaimWindow := { key := r.key, slot := i, ownGrade := 0, noted := false, best := none, needsEntry := false }
      refine (State.claimEnded_endClaim (s := s) (w := w) rfl s rfl).lawful.lawful fun _ r' hr' => ?_
      rw [Option.some.inj (hr'.symm.trans hr)]
      exact ⟨claiming, rfl⟩
    · next state => exact finished (by rw [state]; nofun) (by rw [state]; nofun)
    · next state => exact finished (by rw [state]; nofun) (by rw [state]; nofun)
    · exact marked.lawful
    · exact .refl s
  · split
    · next loading => exact (Lawful.endLoading hr loading _).trans (Eases.handReports _).lawful
    · exact marked.lawful
    all_goals exact .refl s

/-- A record is made in a free slot (R132). -/
theorem State.createRecord_spec {k : Key} {n : Nat} {st : RecordState} {timer : Bool} {b : Body} {i : Slot}
    (h : s.createRecord k n st timer b = some (i, t)) : s.record i = none
      ∧ (∃ r, t.record i = some r ∧ r.key = k ∧ r.state = st ∧ r.body = b)
      ∧ (∀ j, j ≠ i → t.record j = s.record j) ∧ t.lines = s.lines ∧ t.claims = s.claims := by
  unfold State.createRecord at h
  split at h
  · next hi =>
    split at h
    · cases h
    · cases h
      exact ⟨State.freeSlot_spec hi, ⟨_, State.record_setRecord_self .., rfl, rfl, rfl⟩,
        fun j hj => State.record_setRecord_ne _ _ hj, rfl, rfl⟩
  · cases h

/-- A new record that airs nothing, in a free slot, with windows that are held (R132, R156). -/
theorem Lawful.newRecord {i : Slot} {r : Record} (free : s.record i = none) (hr : t.record i = some r)
    (others : ∀ j, j ≠ i → t.record j = s.record j) (silent : ∀ m, r.airs m = false)
    (circuit : ∀ m, (t.line m).circuit = (s.line m).circuit)
    (calls : ∀ m, (t.line m).callList = (s.line m).callList)
    (slots : ∀ m, ∀ j ∈ (t.line m).bulletinSlots, j = i ∨ j ∈ (s.line m).bulletinSlots)
    (claims : ∀ w ∈ t.claims, w ∈ s.claims ∨ t.claimHeld w.key w.slot) : Lawful s t := by
  have cores : ∀ m, (t.line m).cores = (s.line m).cores := fun m => by rw [Line.cores, calls]; rfl
  have kept : ∀ j r0, s.record j = some r0 → r0.post ≠ none → t.record j = some r0 := fun j r0 hj _ =>
    (others j fun e => by rw [e, free] at hj; cases hj).trans hj
  refine ⟨State.shipsOnce_of cores fun m hs d hd => ?_, fun _ hm => ?_, fun hs m a ha b hb aa ab => ?_⟩
  · rw [cores]
    exact hs d (circuit m ▸ hd)
  · obtain ⟨entries, current, held⟩ := State.messages_of circuit cores kept hm
    exact State.messagesPlaced_iff.mpr ⟨entries, current, fun w hw =>
      (claims w hw).elim (fun h => held _ _ ((State.messagesPlaced_iff.mp hm).2.2 w h)) id⟩
  · have off : t.partOnAir m i = false := by rw [State.partOnAir_eq, hr]; exact silent m
    have old : ∀ j ∈ (t.line m).bulletinSlots, t.partOnAir m j = true →
        j ∈ (s.line m).bulletinSlots ∧ s.partOnAir m j = true := fun j hj aj => by
      have ne : j ≠ i := fun e => by rw [e, off] at aj; cases aj
      refine ⟨(slots m j hj).resolve_left ne, ?_⟩
      rwa [State.partOnAir_eq, others j ne, ← State.partOnAir_eq] at aj
    obtain ⟨ha', aa'⟩ := old a ha aa
    obtain ⟨hb', ab'⟩ := old b hb ab
    exact hs m a ha' b hb' aa' ab'

theorem Lawful.evaluateOffer (s : State) (key : Key) (ship n : Nat) (band : Band) (clearAfter : Bool) :
    Lawful s (s.evaluateOffer key ship n band clearAfter) := by
  unfold State.evaluateOffer
  split
  · split
    · exact .refl s
    · next i s' h =>
      obtain ⟨free, ⟨r, hr, hk, hst, hb⟩, others, lines, claims⟩ := State.createRecord_spec h
      refine Lawful.trans ?_ (Eases.offerFrame _ _).lawful
      refine .newRecord free (r := r) hr others (fun m => ?_) (fun m => ?_) (fun m => ?_) (fun m j hj => ?_)
        fun w hw => ?_
      · simp [Record.airs, Record.part?, Record.parts, Record.bulletin?, hb]
      · exact congrArg Line.circuit (State.line_congr lines m)
      · exact congrArg Line.callList (State.line_congr lines m)
      · exact .inr (by rwa [← State.line_congr lines m])
      · rcases List.mem_append.mp hw with hw | hw
        · exact .inl (claims ▸ hw)
        · rw [List.mem_singleton.mp hw]
          exact .inr ⟨r, ship, hr, hk, hst, Record.post_telex hb⟩
  · exact .refl s

theorem Eases.sendTake (s : State) (key : Key) (i : Slot) : Eases [] s (s.sendTake key i) :=
  (Eases.modRecord s i (f := fun r => { r with takeWaiting := true }) (fun _ => ⟨rfl, rfl, rfl⟩) fun _ _ => id).then
    (.offerFrame _ _)

theorem Lawful.takeOffer (s : State) (key : Key) (ship n : Nat) (band : Band) (clearAfter : Bool) :
    Lawful s (s.takeOffer key ship n band clearAfter) := by
  unfold State.takeOffer
  split
  · exact .evaluateOffer s key ship n band clearAfter
  · split
    · exact .refl s
    · split
      · exact .refl s
      · exact .refl s
      all_goals exact iteInduction (fun _ => .refl s) fun _ => (Eases.sendTake s key _).lawful

theorem Eases.takeEcho (s : State) (key : Key) : Eases [] s (s.takeEcho key) := by
  unfold State.takeEcho
  split
  · exact .modRecord s _ (fun _ => ⟨rfl, rfl, rfl⟩) fun _ _ => id
  · exact .refl s

theorem Lawful.takeFromOther (s : State) (source : Station) (key : Key) : Lawful s (s.takeFromOther source key) := by
  unfold State.takeFromOther
  split
  · exact .refl s
  · next i r h =>
    obtain ⟨-, hr⟩ := State.recordUnder_spec h
    split
    · exact .refl s
    · split
      · split
        · next w hw => exact (Lawful.abortClaim (List.mem_of_find?_eq_some hw)).trans (Eases.handReports _).lawful
        · exact .refl s
      · next loading => exact iteInduction (fun _ => .dropTaken hr loading) fun _ => .refl s
      all_goals exact .refl s

/-! ### Placement -/

/-- The ships of the card where one line has more entries. -/
theorem State.shipsHeld_perm {ships : List Nat} (others : ∀ m, m ≠ l → (t.line m).cores = (s.line m).cores)
    (self : ((t.line l).cores.map Prod.fst).Perm (ships ++ (s.line l).cores.map Prod.fst)) :
    t.shipsHeld.Perm (ships ++ s.shipsHeld) := by
  rw [List.perm_iff_count] at self ⊢
  intro a
  have count : ∀ v : State, v.shipsHeld.count a = ((v.line 0).cores.map Prod.fst).count a
      + (((v.line 1).cores.map Prod.fst).count a + (((v.line 2).cores.map Prod.fst).count a
        + ((v.line 3).cores.map Prod.fst).count a)) := fun v => by
    simp only [State.shipsHeld_eq, List.count_append]
  have here := self a
  rw [List.count_append] at here ⊢
  rw [count, count]
  have same : ∀ m, m ≠ l → ((t.line m).cores.map Prod.fst).count a = ((s.line m).cores.map Prod.fst).count a :=
    fun m hm => by rw [others m hm]
  have h0 := same 0
  have h1 := same 1
  have h2 := same 2
  have h3 := same 3
  fin_cases l <;> simp at here h0 h1 h2 h3 <;> omega

theorem State.mem_shipsHeld {ship : Nat} : ship ∈ s.shipsHeld ↔ ∃ m, ∃ ms, (ship, ms) ∈ (s.line m).cores := by
  simp only [State.shipsHeld, List.mem_flatMap, List.mem_map, Line.mem_cores]
  constructor
  · rintro ⟨m, -, e, he, rfl⟩
    exact ⟨m, e.messages, e, he, rfl, rfl⟩
  · rintro ⟨m, ms, e, he, rfl, -⟩
    exact ⟨m, by fin_cases m <;> simp [lineIds], e, he, rfl⟩

/-- A line without an entry for a ship that the card chooses for it is chosen for want of an entry (R128). -/
theorem State.not_mem_shipsHeld_of_chooseLine {ship : Nat} {band : Band} (hs : s.shipsOnce)
    (choice : s.chooseLine ship band = some l) (none' : (s.line l).entry? ship = none) : ship ∉ s.shipsHeld := by
  have noEntry : ∀ ms, (ship, ms) ∉ (s.line l).cores := fun ms h => by
    obtain ⟨e, he, hship, -⟩ := Line.mem_cores.mp h
    exact List.find?_eq_none.mp none' e he (by simpa using hship)
  unfold State.chooseLine at choice
  split at choice
  · next m hm =>
    have works := List.find?_some (show lineIds.find? (fun l => (s.line l).worksFor ship) = some m from hm)
    cases choice
    obtain ⟨c, hc, ship'⟩ := Option.any_eq_true _ _ |>.mp works
    obtain ⟨ms, h⟩ := (State.shipsOnce_iff.mp hs).2.1 l c hc
    rw [of_decide_eq_true ship'] at h
    exact absurd h (noEntry ms)
  · split at choice
    · next m hm =>
      cases choice
      have h := List.find?_some hm
      rw [none'] at h
      cases h
    · next hm =>
      intro held
      obtain ⟨m, ms, h⟩ := State.mem_shipsHeld.mp held
      obtain ⟨e, he, hship, -⟩ := Line.mem_cores.mp h
      have some' := List.find?_eq_none.mp hm m (by fin_cases m <;> simp [lineIds])
      simp only [Option.isSome_iff_ne_none, ne_eq, not_not] at some'
      exact List.find?_eq_none.mp some' e he (by simpa using hship)

/-- What placing a message on a line does to its call list (R26). -/
theorem State.placeMessage_spec {i : Slot} {ship : Nat} {band : Band} (h : s.placeMessage l i ship band = some t) :
    (∀ m, m ≠ l → t.line m = s.line m) ∧ t.records = s.records ∧ t.claims = s.claims
      ∧ (t.line l).circuit = (s.line l).circuit ∧ (t.line l).bulletinSlots = (s.line l).bulletinSlots
      ∧ (((s.line l).entry? ship ≠ none ∧ (t.line l).cores = (s.line l).cores.map fun p =>
            if p.1 = ship then (p.1, p.2 ++ [i]) else p)
        ∨ ((s.line l).entry? ship = none ∧ s.entriesUsed < Config.entryPool
          ∧ (t.line l).cores = (s.line l).cores ++ [(ship, [i])])) := by
  unfold State.placeMessage at h
  split at h
  · next e he =>
    cases h
    refine ⟨fun m hm => State.line_modLine_ne _ _ hm, rfl, rfl, ?_, ?_, .inl ⟨by rw [he]; nofun, ?_⟩⟩
    · rw [State.modEntry, State.line_modLine_self]
    · rw [State.modEntry, State.line_modLine_self]; rfl
    · rw [State.modEntry, State.line_modLine_self, Line.cores, List.map_map, Line.cores, List.map_map]
      refine List.map_congr_left fun e _ => ?_
      by_cases hs : e.ship = ship <;> simp [hs]
  · next he =>
    split at h
    · cases h
    · next room =>
      cases h
      refine ⟨fun m hm => State.line_modLine_ne _ _ hm, rfl, rfl, ?_, ?_, .inr ⟨he, ?_, ?_⟩⟩
      · rw [State.line_modLine_self]
      · rw [State.line_modLine_self]; rfl
      · unfold State.freeEntries at room
        omega
      · rw [State.line_modLine_self, Line.cores, List.map_append]
        rfl

/-- A message taken joins its ship's entry on its line (R26, R159). -/
theorem Lawful.placeTaken {w : ClaimWindow} {r : Record} {x : Telex} (hw : w ∈ s.claims)
    (hr : s.record w.slot = some r) (hx : r.body = .telex x) (choice : s.chooseLine x.ship x.band = some l)
    (place : s.placeMessage l w.slot x.ship x.band = some t) {f : Record → Record}
    (hf : (f r).post = some (some l, x.ship) ∧ (f r).state = .loading ∧ ∀ m, (f r).airs m = true → r.airs m = true) :
    Lawful s { t.modRecord w.slot f with claims := t.claims.filter fun v => v.key ≠ w.key } := by
  obtain ⟨others, records, claims, circuit, slots, cores⟩ := State.placeMessage_spec place
  obtain ⟨post, loading, air⟩ := hf
  generalize hu : ({ t.modRecord w.slot f with claims := t.claims.filter fun v => v.key ≠ w.key } : State) = u
  have line : ∀ m, u.line m = t.line m := fun m => by subst hu; rfl
  have claims' : ∀ v ∈ u.claims, v ∈ s.claims ∧ v.key ≠ w.key := fun v hv => by
    subst hu
    exact ⟨claims ▸ List.mem_of_mem_filter hv, by simpa using (List.mem_filter.mp hv).2⟩
  have record : u.record w.slot = some (f r) := by
    subst hu
    show (t.modRecord w.slot f).record w.slot = _
    rw [State.record_modRecord_self, State.record_congr records, hr]
    rfl
  have record_ne : ∀ j, j ≠ w.slot → u.record j = s.record j := fun j hj => by
    subst hu
    exact (State.record_modRecord_ne _ _ hj).trans (State.record_congr records j)
  have circuits : ∀ m, (u.line m).circuit = (s.line m).circuit := fun m => by
    by_cases hm : m = l
    · subst hm; rw [line, circuit]
    · rw [line, others m hm]
  have grown : ∀ m p, p ∈ (s.line m).cores → ∃ ms, (p.1, ms) ∈ (u.line m).cores ∧ ∀ j ∈ p.2, j ∈ ms := fun m p hp => by
    rw [line]
    by_cases hm : m = l
    · subst hm
      rcases cores with ⟨-, e⟩ | ⟨-, -, e⟩
      · by_cases hs : p.1 = x.ship
        · refine ⟨p.2 ++ [w.slot], ?_, fun j hj => List.mem_append_left _ hj⟩
          rw [e]
          exact List.mem_map.mpr ⟨p, hp, if_pos hs⟩
        · exact ⟨p.2, by rw [e]; exact List.mem_map.mpr ⟨p, hp, if_neg hs⟩, fun _ => id⟩
      · exact ⟨p.2, by rw [e]; exact List.mem_append_left _ hp, fun _ => id⟩
    · exact ⟨p.2, by rw [others m hm]; exact hp, fun _ => id⟩
  have manned : ∀ m, s.manned m → u.manned m := fun m hm d hd => by
    obtain ⟨ms, h⟩ := hm d (circuits m ▸ hd)
    obtain ⟨ms', h', -⟩ := grown m _ h
    exact ⟨ms', h'⟩
  refine ⟨fun hs => ?_, fun hs hm => ?_, State.onePartOnAir_of (fun m => ?_) fun m j ha => ?_⟩
  · obtain ⟨nodup, all, pool⟩ := State.shipsOnce_iff.mp hs
    have elsewhere : ∀ m, m ≠ l → (u.line m).cores = (s.line m).cores := fun m hm => by rw [line, others m hm]
    rcases cores with ⟨-, e⟩ | ⟨fresh, room, e⟩
    · have perm : u.shipsHeld.Perm ([] ++ s.shipsHeld) := State.shipsHeld_perm elsewhere (by
        rw [line, e, List.map_map, List.nil_append, List.map_congr_left]
        intro p _
        rw [Function.comp_apply]
        split <;> rfl)
      exact State.shipsOnce_iff.mpr ⟨perm.nodup_iff.mpr nodup, fun m => manned m (all m), perm.length_eq ▸ pool⟩
    · have perm : u.shipsHeld.Perm ([x.ship] ++ s.shipsHeld) := State.shipsHeld_perm elsewhere (by
        rw [line, e, List.map_append]
        exact List.perm_append_comm)
      refine State.shipsOnce_iff.mpr ⟨perm.nodup_iff.mpr (List.nodup_cons.mpr
        ⟨State.not_mem_shipsHeld_of_chooseLine hs choice fresh, nodup⟩), fun m => manned m (all m), ?_⟩
      rw [perm.length_eq, List.length_append, State.shipsHeld_length]
      exact Nat.one_add_le_iff.mpr room
  · obtain ⟨entries, current, held⟩ := State.messagesPlaced_iff.mp hm
    obtain ⟨r0, -, hr0, key, claiming, -⟩ := held w hw
    obtain rfl : r0 = r := Option.some.inj (hr0.symm.trans hr)
    have notPlaced : ∀ m ship j, s.placed m ship j → j ≠ w.slot := fun m ship j ⟨r', hr', _, works⟩ e => by
      subst e
      rw [Option.some.inj (hr'.symm.trans hr), claiming] at works
      cases works
    have stays : ∀ m ship j, s.placed m ship j → u.placed m ship j := fun m ship j h => by
      obtain ⟨r', hr', rest⟩ := h
      exact ⟨r', (record_ne j (notPlaced m ship j ⟨r', hr', rest⟩)).trans hr', rest⟩
    have placed : u.placed l x.ship w.slot := ⟨f r0, record, post, by rw [loading]; rfl⟩
    refine State.messagesPlaced_iff.mpr ⟨fun m p hp => ?_, fun m d j hd hj => ?_, fun v hv => ?_⟩
    · have old : ∀ p ∈ (s.line m).cores, p.2.Nodup ∧ ∀ j ∈ p.2, u.placed m p.1 j := fun p hp =>
        ⟨(entries m p hp).1, fun j hj => stays m p.1 j ((entries m p hp).2 j hj)⟩
      rw [line] at hp
      by_cases hml : m = l
      · subst hml
        rcases cores with ⟨-, e⟩ | ⟨-, -, e⟩
        · rw [e] at hp
          obtain ⟨p0, hp0, rfl⟩ := List.mem_map.mp hp
          obtain ⟨nodup0, placed0⟩ := old p0 hp0
          split
          · next hship =>
            refine ⟨nodup0.append (List.nodup_singleton _) ?_, fun j hj => ?_⟩
            · rw [List.disjoint_singleton]
              exact fun h => notPlaced m p0.1 _ ((entries m p0 hp0).2 _ h) rfl
            · rcases List.mem_append.mp hj with hj | hj
              · exact placed0 j hj
              · rw [List.mem_singleton.mp hj, hship]
                exact placed
          · exact ⟨nodup0, placed0⟩
        · rw [e] at hp
          rcases List.mem_append.mp hp with hp | hp
          · exact old p hp
          · rw [List.mem_singleton.mp hp]
            exact ⟨List.nodup_singleton _, fun j hj => by rw [List.mem_singleton.mp hj]; exact placed⟩
      · rw [others m hml] at hp
        exact old p hp
    · rw [circuits] at hd
      obtain ⟨air', state, ms, hms, hjm⟩ := current m d j hd hj
      obtain ⟨ms', hms', sub⟩ := grown m _ hms
      refine ⟨?_, state, ms', hms', sub j hjm⟩
      rw [State.isOnAir, record_ne j (notPlaced m _ j ((entries m _ hms).2 j hjm))]
      exact air'
    · obtain ⟨hv', other⟩ := claims' v hv
      obtain ⟨r', ship, hr', key', rest⟩ := held v hv'
      refine ⟨r', ship, (record_ne _ fun e => other ?_).trans hr', key', rest⟩
      rw [e, hr] at hr'
      rw [← key', ← Option.some.inj hr', key]
  · by_cases hm : m = l
    · subst hm; rw [line, slots]; exact fun _ => id
    · rw [line, others m hm]; exact fun _ => id
  · rw [State.partOnAir_eq] at ha ⊢
    by_cases hj : j = w.slot
    · subst hj
      rw [record] at ha
      rw [hr]
      exact air m ha
    · rwa [record_ne j hj] at ha

theorem Lawful.takeMessage {w : ClaimWindow} (hw : w ∈ s.claims) : Lawful s (s.takeMessage w) := by
  unfold State.takeMessage
  split
  · exact .endClaim hw
  · next x hx =>
    obtain ⟨r, hr, htelex⟩ := Option.bind_eq_some_iff.mp hx
    have hb : r.body = .telex x := by
      unfold Record.telex? at htelex
      split at htelex
      · next y hy => rw [hy, Option.some.inj htelex]
      · cases htelex
    split
    · exact .endClaim hw
    · next l choice =>
      split
      · exact .endClaim hw
      · next s1 place =>
        refine (Lawful.placeTaken hw hr hb choice place (f := fun r =>
          { r.modTelex (fun t => { t with line := some l }) with state := .loading, loadTimer := true })
          ⟨?_, rfl, fun m => ?_⟩).trans ((Eases.sendTake _ w.key w.slot).lawful.trans (Eases.lawful ?_))
        · refine Record.post_eq_some.mpr ⟨{ x with line := some l }, ?_, rfl, rfl⟩
          simp [Record.modTelex, hb]
        · show (r.modTelex _).airs m = true → _
          rw [Record.airs, Record.part?, (r.modTelex_kept _).2.2]
          exact id
        · exact .of_eq rfl rfl rfl

theorem Lawful.resolveClaim {w : ClaimWindow} (hw : w ∈ s.claims) : Lawful s (s.resolveClaim w) := by
  unfold State.resolveClaim
  split
  · exact (Lawful.abortClaim hw).trans (Eases.handReports _).lawful
  · split
    · exact .takeMessage hw
    · exact .endClaim hw

end Sys2Proof.Machine

namespace Sys2Proof.Machine

variable {l : LineId} {s t u : State} {c : Circuit}

/-! ## Posts, the clock and the orders -/

/-- A slot that joins a queue of a line is the one new slot of its queues (R68). -/
theorem State.joinQueue_slots (s : State) (i : Slot) (kind : ClassType) (cls : Nat) (m : LineId) :
    ∀ j ∈ ((s.joinQueue l i kind cls).line m).bulletinSlots, j = i ∨ j ∈ (s.line m).bulletinSlots := by
  intro j hj
  by_cases hm : m = l
  · subst hm
    have byClass : j ∈ s.joinByClass cls i (s.line m).windowQueue → j = i ∨ j ∈ (s.line m).windowQueue := fun h => by
      rw [← List.takeWhile_append_dropWhile (p := fun j => decide (s.classOf j ≤ cls)) (l := (s.line m).windowQueue)]
      simp only [State.joinByClass, List.mem_append, List.mem_singleton] at h ⊢
      tauto
    rw [State.joinQueue, State.line_modLine_self] at hj
    cases kind <;> simp only [Line.bulletinSlots, List.mem_append, List.mem_singleton] at hj ⊢
    case window => rcases hj with (h | h) | h <;> [skip; have := byClass h; skip] <;> tauto
    all_goals tauto
  · rw [State.joinQueue, State.line_modLine_ne _ _ hm] at hj
    exact .inr hj

theorem State.joinQueue_line (s : State) (i : Slot) (kind : ClassType) (cls : Nat) (m : LineId) :
    ((s.joinQueue l i kind cls).line m).circuit = (s.line m).circuit
      ∧ ((s.joinQueue l i kind cls).line m).callList = (s.line m).callList := by
  by_cases hm : m = l
  · subst hm
    rw [State.joinQueue, State.line_modLine_self]
    cases kind <;> exact ⟨rfl, rfl⟩
  · rw [State.joinQueue, State.line_modLine_ne _ _ hm]
    exact ⟨rfl, rfl⟩

theorem State.joinQueues_spec (i : Slot) (kind : ClassType) (cls : Nat) (targets : List LineId) : ∀ s t : State,
    t = targets.foldl (fun t l => t.joinQueue l i kind cls) s → t.records = s.records ∧ t.claims = s.claims
      ∧ (∀ m, (t.line m).circuit = (s.line m).circuit) ∧ (∀ m, (t.line m).callList = (s.line m).callList)
      ∧ ∀ m, ∀ j ∈ (t.line m).bulletinSlots, j = i ∨ j ∈ (s.line m).bulletinSlots := by
  induction targets with
  | nil => rintro s t rfl; exact ⟨rfl, rfl, fun _ => rfl, fun _ => rfl, fun _ _ => .inr⟩
  | cons a rest ih =>
    intro s t ht
    obtain ⟨records, claims, circuit, calls, slots⟩ := ih (s.joinQueue a i kind cls) t ht
    refine ⟨records, claims, fun m => (circuit m).trans (s.joinQueue_line i kind cls m).1,
      fun m => (calls m).trans (s.joinQueue_line i kind cls m).2, fun m j hj => ?_⟩
    exact (slots m j hj).elim .inl (s.joinQueue_slots i kind cls m j)

/-- The parts of a bulletin just accepted air on no line (R68). -/
theorem Record.airs_newParts {r : Record} {b : Bulletin} {repeats : Nat} {targets : List LineId}
    (hb : r.body = .bulletin b) (hp : b.parts = targets.map (newPart repeats)) (m : LineId) : r.airs m = false := by
  rw [Record.airs, Option.any_eq_false]
  intro p h
  have mem := List.mem_of_find?_eq_some h
  rw [Record.parts, Record.bulletin?, hb] at mem
  simp only [Option.map_some, Option.getD_some, hp, List.mem_map] at mem
  obtain ⟨k, -, rfl⟩ := mem
  rfl

theorem Lawful.acceptPost (s : State) (key : Key) (cls : Fin 16) (n : Nat) (targets : List LineId) :
    Lawful s (s.acceptPost key cls n targets) := by
  unfold State.acceptPost
  dsimp only
  split
  · exact (Eases.offerFrame s _).lawful
  · next i s' h =>
    obtain ⟨free, ⟨r, hr, -, -, hb⟩, others, lines, claims⟩ := State.createRecord_spec h
    obtain ⟨records, claims', circuit, calls, slots⟩ :=
      State.joinQueues_spec i s.config.classes[cls].kind cls.val targets s' _ rfl
    refine .newRecord free ((State.record_congr records i).trans hr)
      (fun j hj => (State.record_congr records j).trans (others j hj)) (Record.airs_newParts hb rfl)
      (fun m => ?_) (fun m => ?_) (fun m j hj => ?_) fun w hw => .inl ?_
    · rw [circuit, State.line_congr lines]
    · rw [calls, State.line_congr lines]
    · rw [← State.line_congr lines m]
      exact slots m j hj
    · rwa [claims', claims] at hw

theorem Lawful.takePost (s : State) (key : Key) (cls : Fin 16) (n : Nat) (channels : List (Fin 1024)) :
    Lawful s (s.takePost key cls n channels) := by
  unfold State.takePost
  split
  · exact .refl s
  · split
    · exact .refl s
    · split
      · exact (Eases.offerFrame s _).lawful
      · exact .acceptPost s key cls n _

theorem Line.Eases.opened (x : Line) : x.Eases [] x.opened := by
  unfold Line.opened
  split
  · exact .refl x
  · split <;> exact .of_cores rfl rfl fun _ => id

theorem Eases.handOpenings (s : State) (ls : List LineId) : Eases [] s (s.handOpenings ls) where
  lines m := by
    rw [State.handOpenings_line]
    exact iteInduction (motive := fun y => (s.line m).Eases [] y) (fun _ => .opened _) fun _ => .refl _
  records := .of_records (by rw [State.handOpenings_frame])
  claims w hw := by
    rw [State.handOpenings_frame] at hw
    exact ⟨w, hw, rfl, rfl⟩

theorem Eases.setMarks (s : State) (due : Nat → Bool) : Eases [] s (s.setMarks due) := .of_eq rfl rfl rfl

theorem Eases.clearMarks (s : State) : Eases [] s s.clearMarks := .of_eq rfl rfl rfl

theorem Eases.advanceMinute (s : State) : Eases [] s s.advanceMinute := by
  have cleared : ∀ u, Eases [] s u → Eases [] s (if u.minute = 0 then u.clearMarks else u) := fun u h =>
    iteInduction (fun _ => h.then (.clearMarks u)) fun _ => h
  have minute : Eases [] s { s with minute := s.minute + 1 } := .of_eq rfl rfl rfl
  have h := cleared _ minute
  unfold State.advanceMinute
  generalize ({ s with minute := s.minute + 1 } : State) = u at h ⊢
  dsimp only
  generalize (if u.minute = 0 then u.clearMarks else u) = v at h ⊢
  split
  · exact (h.then (.setMarks v _)).then (.handOpenings _ _)
  · exact h

theorem Eases.secondPasses (s : State) : Eases [] s s.secondPasses := by
  unfold State.secondPasses
  split
  · exact Eases.then (t := { s with second := 0 }) (.of_eq rfl rfl rfl) (.advanceMinute _)
  · exact .of_eq rfl rfl rfl

theorem Eases.dueWork (s : State) (new : Nat) : Eases [] s (s.dueWork new) := by
  unfold State.dueWork
  dsimp only
  split
  · exact (Eases.setMarks s _).then (.handOpenings _ _)
  · split
    · exact .refl s
    · exact (((Eases.setMarks s _).then (.clearMarks _)).then (.setMarks _ _)).then (.handOpenings _ _)

theorem Eases.setClock (s : State) (minute second : Nat) : Eases [] s (s.setClock minute second) := by
  have due : Eases [] s (if s.timeValid then s.dueWork minute else s) :=
    iteInduction (fun _ => .dueWork s minute) fun _ => .refl s
  unfold State.setClock
  generalize (if s.timeValid then s.dueWork minute else s) = u at due ⊢
  split
  · exact due.then (.of_eq rfl rfl rfl)
  · exact .refl s

/-- An outcome record touches the kept outcome alone (R5). -/
theorem Line.takeOutcome_eq (x : Line) (tag : Fin 8) (o : Outcome) :
    ∃ kept, x.takeOutcome tag o = { x with outcome := kept } := by
  unfold Line.takeOutcome
  split
  · exact ⟨_, rfl⟩
  · split
    · exact ⟨_, rfl⟩
    · exact ⟨_, rfl⟩

theorem Eases.takeOutcome (s : State) (tag : Fin 8) (o : Outcome) :
    Eases [] s (s.modLine l fun x => x.takeOutcome tag o) := by
  refine .modFields s (fun x => ?_) (fun x => ?_) fun x j hj => ?_
  all_goals obtain ⟨kept, e⟩ := x.takeOutcome_eq tag o
  · rw [e]
  · rw [e]
  · rw [e] at hj
    exact hj

theorem Eases.takeOrder (s : State) (l : LineId) (order : LineOrder) (source : Station) :
    Eases [] s (s.takeOrder l order source) := by
  unfold State.takeOrder
  split
  · exact .offerFrame s _
  · split
    · exact .modFields s (fun _ => rfl) (fun _ => rfl) fun _ _ => id
    · exact .offerFrame s _

theorem Eases.leaveAnswers (s : State) (mask : BandMask) (source : Station) :
    Eases [] s (s.leaveAnswers mask source) where
  lines m := by
    rw [State.leaveAnswers, State.line_mapLines]
    exact iteInduction (motive := fun y => (s.line m).Eases [] y) (fun _ => .of_cores rfl rfl fun _ => id)
      fun _ => .refl _
  records := .of_records rfl
  claims w hw := ⟨w, hw, rfl, rfl⟩

/-! ## A conflict -/

theorem Eases.meet (s : State) (source : Station) (a : Announcement) : Eases [] s (s.meet source a) := by
  have known : Eases [] s { s with known := addKnown s.known source } := .of_eq rfl rfl rfl
  unfold State.meet
  dsimp only
  split
  · exact known.then (.offerFrame _ _)
  · exact known

theorem Eases.adopt (s : State) (a : Announcement) : Eases [] s (s.adopt a) := by
  have joined : Eases [] s { s with silenced := s.silenced ||| a.silenced } := .of_eq rfl rfl rfl
  unfold State.adopt
  split
  · dsimp only
    split
    · exact joined.then (.setClock _ _ _)
    · exact joined
  · exact .refl s

theorem Eases.loseChannel (s : State) (l : LineId) : Eases [] s (s.loseChannel l) := by
  have disabled : Eases [] s (s.modLine l Line.disable) := .modFields s (fun _ => rfl) (fun _ => rfl) fun _ _ => id
  unfold State.loseChannel
  dsimp only
  split
  · exact disabled
  · exact disabled.then (.offerFrame _ _)

theorem Eases.dropPart (s : State) (i : Slot) (l : LineId) : Eases [] s (s.modRecord i fun r => r.dropPart l) :=
  .modBulletin s i fun r m h => by
    rw [Record.airs, show (r.modBulletin _).part? m = (r.dropPart l).part? m from rfl, Record.part?_dropPart] at h
    split at h
    · cases h
    · exact h

theorem Eases.conflictPart (s : State) (l : LineId) (i : Slot) : Eases [] s (s.conflictPart l i) := by
  unfold State.conflictPart
  split
  · next r p hr hp =>
    have bulletin : ∀ r', s.record i = some r' → r'.post = none := fun _ hr' => State.post_of_part hp hr'
    have discarded : Eases [] s (s.discardBsent i l) := .of_eq rfl rfl rfl
    have dropped : Eases [] s (((s.discardBsent i l).leaveQueues l i).modRecord i fun r => r.dropPart l) :=
      (discarded.then (.leaveQueues _ i)).then (.dropPart _ i l)
    have record : (((s.discardBsent i l).leaveQueues l i).modRecord i fun r => r.dropPart l).record i
        = some (r.dropPart l) := by
      rw [State.record_modRecord_self]
      exact congrArg (Option.map _) hr
    have post : (r.dropPart l).post = none := (r.post_modBulletin _).trans (bulletin r hr)
    dsimp only
    split
    · exact discarded.then (.withdrawPart _ true bulletin)
    · generalize (((s.discardBsent i l).leaveQueues l i).modRecord i fun r => r.dropPart l) = v at dropped record ⊢
      have told : Eases [] s (if v.reports.any (fun q => q.slot = i && q.item = .conflict) then v
          else v.addReport i .conflict) :=
        iteInduction (fun _ => dropped) fun _ => dropped.then (.addReport v i _)
      have told_record : (if v.reports.any (fun q => q.slot = i && q.item = .conflict) then v
          else v.addReport i .conflict).record i = some (r.dropPart l) := by
        split <;> exact record
      generalize (if v.reports.any (fun q => q.slot = i && q.item = .conflict) then v
          else v.addReport i .conflict) = w at told told_record ⊢
      split
      · refine told.then (.endWork w fun r' hr' => ?_)
        rw [Option.some.inj (hr'.symm.trans told_record), post]
      · exact told.then (.retireIfDone w i)
  · exact .refl s

/-! ### The entries of a lost line move -/

/-- The records of some messages placed on a line (R149). -/
theorem State.setRecordLines_spec (k : LineId) (ms : List Slot) : ∀ s : State,
    (s.setRecordLines k ms).lines = s.lines ∧ (s.setRecordLines k ms).claims = s.claims
      ∧ (∀ j, j ∉ ms → (s.setRecordLines k ms).record j = s.record j)
      ∧ (∀ m i, (s.setRecordLines k ms).partOnAir m i = true → s.partOnAir m i = true)
      ∧ ∀ ship j, (∃ m, s.placed m ship j) → j ∈ ms ∨ s.placed k ship j → (s.setRecordLines k ms).placed k ship j := by
  induction ms with
  | nil =>
    exact fun s => ⟨rfl, rfl, fun _ _ => rfl, fun _ _ => id, fun ship j _ h => h.resolve_left List.not_mem_nil⟩
  | cons i rest ih =>
    intro s
    generalize hu : (s.modRecord i fun r => r.modTelex fun x => { x with line := some k }) = u
    have self : u.record i = (s.record i).map fun r => r.modTelex fun x => { x with line := some k } := by
      rw [← hu, State.record_modRecord_self]
    have others : ∀ j, j ≠ i → u.record j = s.record j := fun j hj => by rw [← hu, State.record_modRecord_ne _ _ hj]
    have placed : ∀ ship m, s.placed m ship i → u.placed k ship i := fun ship m ⟨r, hr, post, works⟩ => by
      obtain ⟨x, hb, -, ship'⟩ := Record.post_eq_some.mp post
      refine ⟨_, by rw [self, hr]; rfl, Record.post_eq_some.mpr ⟨{ x with line := some k }, ?_, rfl, ship'⟩,
        (r.modTelex_kept _).2.1 ▸ works⟩
      simp [Record.modTelex, hb]
    have stays : ∀ ship m j, j ≠ i → s.placed m ship j → u.placed m ship j := fun ship m j hj ⟨r, hr, h⟩ =>
      ⟨r, (others j hj).trans hr, h⟩
    obtain ⟨lines, claims, records, air, onLine⟩ := ih u
    rw [show s.setRecordLines k (i :: rest) = u.setRecordLines k rest by rw [← hu]; rfl]
    refine ⟨by rw [lines, ← hu]; rfl, by rw [claims, ← hu]; rfl, fun j hj => ?_, fun m j h => ?_,
      fun ship j ⟨m, hm⟩ h => ?_⟩
    · obtain ⟨hi, hr⟩ := not_or.mp (mt List.mem_cons.mpr hj)
      exact (records j hr).trans (others j hi)
    · have h' := air m j h
      by_cases hj : j = i
      · subst hj
        rw [State.partOnAir_eq, self] at h'
        rw [State.partOnAir_eq]
        cases hr : s.record j with
        | none => rw [hr] at h'; cases h'
        | some r =>
          rw [hr, Option.map_some, Option.any_some, Record.airs, Record.part?, (r.modTelex_kept _).2.2] at h'
          exact h'
      · rwa [State.partOnAir_eq, others j hj, ← State.partOnAir_eq] at h'
    · by_cases hj : j = i
      · subst hj
        exact onLine ship j ⟨k, placed ship m hm⟩ (.inr (placed ship m hm))
      · refine onLine ship j ⟨m, stays ship m j hj hm⟩ (h.imp (fun h => ?_) (stays ship k j hj))
        exact (List.mem_cons.mp h).resolve_left hj

/-- What moving one entry of a lost line does: it joins a line with its messages, or is gone with them (R183). -/
structure Moved (s t : State) (e : Entry) : Prop where
  records : ∀ j, j ∉ e.messages → t.record j = s.record j
  claims : t.claims = s.claims
  circuit : ∀ m, (t.line m).circuit = (s.line m).circuit
  slots : ∀ m, (t.line m).bulletinSlots = (s.line m).bulletinSlots
  air : ∀ m i, t.partOnAir m i = true → s.partOnAir m i = true
  cores : (∀ m, (t.line m).cores = (s.line m).cores)
    ∨ ∃ k, (∀ m, m ≠ k → (t.line m).cores = (s.line m).cores)
      ∧ (t.line k).cores = (s.line k).cores ++ [(e.ship, e.messages)]
      ∧ ∀ m, ∀ j ∈ e.messages, s.placed m e.ship j → t.placed k e.ship j

theorem State.moveEntry_moved (s : State) (e : Entry) : Moved s (s.moveEntry e) e := by
  unfold State.moveEntry
  split
  · next k _ =>
    generalize hu : (s.modLine k fun x => { x with callList := x.callList ++ [{ e with recalled := false }] }) = u
    have records : u.records = s.records := by rw [← hu]; rfl
    have others : ∀ m, m ≠ k → u.line m = s.line m := fun m hm => by rw [← hu, State.line_modLine_ne _ _ hm]
    have self : u.line k
        = { s.line k with callList := (s.line k).callList ++ [{ e with recalled := false }] } := by
      rw [← hu, State.line_modLine_self]
    obtain ⟨lines, claims, kept, air, onLine⟩ := State.setRecordLines_spec k e.messages u
    have line : ∀ m, (u.setRecordLines k e.messages).line m = u.line m := fun m => State.line_congr lines m
    refine ⟨fun j hj => (kept j hj).trans (State.record_congr records j), by rw [claims, ← hu]; rfl, fun m => ?_,
      fun m => ?_, fun m i h => ?_, .inr ⟨k, fun m hm => by rw [line, others m hm], ?_, fun m j hj h => ?_⟩⟩
    · by_cases hm : m = k
      · subst hm; rw [line, self]
      · rw [line, others m hm]
    · by_cases hm : m = k
      · subst hm; rw [line, self]; rfl
      · rw [line, others m hm]
    · have h' := air m i h
      rwa [State.partOnAir_eq, State.record_congr records, ← State.partOnAir_eq] at h'
    · rw [line, self, Line.cores, List.map_append]
      rfl
    · obtain ⟨r, hr, rest⟩ := h
      exact onLine e.ship j ⟨m, r, (State.record_congr records j).trans hr, rest⟩ (.inl hj)
  · have work := Eases.returnMessages s .conflict e.messages
    have line : ∀ m, (s.returnMessages .conflict e.messages).line m = s.line m :=
      State.line_congr (State.returnMessages_lines _ _ _)
    exact ⟨fun j hj => State.returnMessages_record_ne _ _ hj s,
      (State.fixed_fields (State.fixed_returnMessages _ _ s)).2.2.2.2.2.2.2, fun m => by rw [line], fun m => by rw [line],
      fun _ _ => work.records.partOnAir, .inl fun m => by rw [line]⟩

/-- The ships of a card some of whose entries wait to be moved (R25, R183). -/
def State.shipsMoving (s : State) (rest : List Entry) : Prop :=
  (rest.map (·.ship) ++ s.shipsHeld).Nodup ∧ (∀ m, s.manned m)
    ∧ (rest.map (·.ship) ++ s.shipsHeld).length ≤ Config.entryPool

/-- The messages of a card some of whose entries, once a line's, wait to be moved (R133, R183). -/
def State.messagesMoving (s : State) (l : LineId) (rest : List Entry) : Prop :=
  s.messagesPlaced ∧ ∀ e ∈ rest, e.messages.Nodup ∧ ∀ j ∈ e.messages, s.placed l e.ship j

section moved

variable {e : Entry} {rest : List Entry} (h : Moved s t e)
include h

theorem Moved.manned (m : LineId) (hm : s.manned m) : t.manned m := by
  intro d hd
  obtain ⟨ms, mem⟩ := hm d (h.circuit m ▸ hd)
  rcases h.cores with same | ⟨k, same, joined, -⟩
  · exact ⟨ms, (same m).symm ▸ mem⟩
  · by_cases hk : m = k
    · subst hk
      exact ⟨ms, by rw [joined]; exact List.mem_append_left _ mem⟩
    · exact ⟨ms, (same m hk).symm ▸ mem⟩

theorem Moved.shipsMoving (hs : s.shipsMoving (e :: rest)) : t.shipsMoving rest := by
  obtain ⟨nodup, manned, pool⟩ := hs
  have less : (rest.map (·.ship) ++ t.shipsHeld).Subperm ((e :: rest).map (·.ship) ++ s.shipsHeld) := by
    rcases h.cores with same | ⟨k, same, joined, -⟩
    · rw [show t.shipsHeld = s.shipsHeld by simp only [State.shipsHeld_eq, same]]
      exact (List.sublist_cons_self _ _).subperm
    · have perm : t.shipsHeld.Perm ([e.ship] ++ s.shipsHeld) := State.shipsHeld_perm same (by
        rw [joined, List.map_append]
        exact List.perm_append_comm)
      exact ((perm.append_left _).trans List.perm_middle).subperm
  exact ⟨nodup_of_subperm less nodup, fun m => h.manned m (manned m), less.length_le.trans pool⟩

theorem Moved.messagesMoving (hs : s.shipsMoving (e :: rest)) (hm : s.messagesMoving l (e :: rest)) :
    t.messagesMoving l rest := by
  obtain ⟨placed, waiting⟩ := hm
  obtain ⟨nodupE, placedE⟩ := waiting e List.mem_cons_self
  obtain ⟨entries, current, claims⟩ := State.messagesPlaced_iff.mp placed
  obtain ⟨fresh, distinct⟩ := List.nodup_cons.mp hs.1
  have other : ∀ m ship j, s.placed m ship j → ship ≠ e.ship → j ∉ e.messages := fun m ship j hp hne hj =>
    hne (State.placed_unique hp (placedE j hj)).2
  have stays : ∀ m ship j, s.placed m ship j → ship ≠ e.ship → t.placed m ship j := fun m ship j hp hne => by
    have same := h.records j (other m ship j hp hne)
    obtain ⟨r, hr, post⟩ := hp
    exact ⟨r, same.trans hr, post⟩
  have elsewhere : ∀ m, ∀ p ∈ (s.line m).cores, p.1 ≠ e.ship := fun m p hp heq =>
    fresh (List.mem_append_right _ (State.mem_shipsHeld.mpr ⟨m, p.2, show (e.ship, p.2) ∈ _ by rwa [← heq]⟩))
  have grown : ∀ m, ∀ p ∈ (s.line m).cores, p ∈ (t.line m).cores := fun m p hp => by
    rcases h.cores with same | ⟨k, same, joined, -⟩
    · rwa [same]
    · by_cases hk : m = k
      · subst hk; rw [joined]; exact List.mem_append_left _ hp
      · rwa [same m hk]
  refine ⟨State.messagesPlaced_iff.mpr ⟨fun m p hp => ?_, fun m d j hd hj => ?_, fun w hw => ?_⟩, fun e' he' => ?_⟩
  · have old : p ∈ (s.line m).cores → p.2.Nodup ∧ ∀ j ∈ p.2, t.placed m p.1 j := fun hp =>
      ⟨(entries m p hp).1, fun j hj => stays m p.1 j ((entries m p hp).2 j hj) (elsewhere m p hp)⟩
    rcases h.cores with same | ⟨k, same, joined, onLine⟩
    · exact old (same m ▸ hp)
    · by_cases hk : m = k
      · subst hk
        rw [joined] at hp
        rcases List.mem_append.mp hp with hp | hp
        · exact old hp
        · rw [List.mem_singleton.mp hp]
          exact ⟨nodupE, fun j hj => onLine l j hj (placedE j hj)⟩
      · exact old (same m hk ▸ hp)
  · rw [h.circuit] at hd
    obtain ⟨air, state, ms, hms, hjm⟩ := current m d j hd hj
    refine ⟨?_, state, ms, grown m _ hms, hjm⟩
    rw [State.isOnAir, h.records j (other m _ j ((entries m _ hms).2 j hjm) (elsewhere m _ hms))]
    exact air
  · rw [h.claims] at hw
    obtain ⟨r, ship, hr, key, claiming, post⟩ := claims w hw
    refine ⟨r, ship, (h.records _ fun hj => ?_).trans hr, key, claiming, post⟩
    obtain ⟨r', hr', -, works⟩ := placedE _ hj
    rw [Option.some.inj (hr'.symm.trans hr), claiming] at works
    cases works
  · obtain ⟨nodup', placed'⟩ := waiting e' (List.mem_cons_of_mem _ he')
    have hne : e'.ship ≠ e.ship := fun heq =>
      fresh (List.mem_append_left _ (List.mem_map.mpr ⟨e', he', heq⟩))
    exact ⟨nodup', fun j hj => stays l e'.ship j (placed' j hj) hne⟩

end moved

theorem Moved.foldl (l : LineId) (rest : List Entry) : ∀ s : State,
    (s.shipsMoving rest → (rest.foldl State.moveEntry s).shipsOnce)
      ∧ (s.shipsMoving rest → s.messagesMoving l rest → (rest.foldl State.moveEntry s).messagesPlaced)
      ∧ (s.onePartOnAir → (rest.foldl State.moveEntry s).onePartOnAir) := by
  induction rest with
  | nil => exact fun s => ⟨State.shipsOnce_iff.mpr, fun _ h => h.1, id⟩
  | cons e rest ih =>
    intro s
    have h := s.moveEntry_moved e
    obtain ⟨ships, messages, air⟩ := ih (s.moveEntry e)
    refine ⟨fun hs => ships (h.shipsMoving hs), fun hs hm => messages (h.shipsMoving hs) (h.messagesMoving hs hm),
      fun ha => air (State.onePartOnAir_of (fun m => ?_) h.air ha)⟩
    rw [h.slots]
    exact fun _ => id

/-- A line without a circuit gives its entries up (R183). -/
theorem Lawful.moveEntries (h : (s.line l).circuit = none) : Lawful s (s.moveEntries l) := by
  have emptied : Eases [] s (s.modLine l fun x => { x with callList := [] }) :=
    .modLine s (.of_idle h (List.nil_subperm) rfl)
  obtain ⟨ships, messages, air⟩ :=
    Moved.foldl l (s.line l).callList (s.modLine l fun x => { x with callList := [] })
  have moving : s.shipsOnce → State.shipsMoving (s.modLine l fun x => { x with callList := [] }) (s.line l).callList :=
    fun hs => by
      obtain ⟨nodup, manned, pool⟩ := State.shipsOnce_iff.mp hs
      have perm : s.shipsHeld.Perm ((s.line l).callList.map (·.ship)
          ++ (s.modLine l fun x => { x with callList := [] }).shipsHeld) := by
        refine State.shipsHeld_perm (fun m hm => by rw [State.line_modLine_ne _ _ hm]) ?_
        rw [State.line_modLine_self, Line.cores_ships]
        exact (List.append_nil _).symm ▸ List.Perm.refl _
      exact ⟨perm.nodup_iff.mp nodup, fun m => emptied.manned (manned m), perm.length_eq ▸ pool⟩
  refine ⟨fun hs => ships (moving hs), fun hs hm => messages (moving hs) ⟨emptied.lawful.messages hs hm,
    fun e he => ?_⟩, fun ha => air (emptied.onePartOnAir ha)⟩
  obtain ⟨nodup, placed⟩ := (State.messagesPlaced_iff.mp hm).1 l (e.ship, e.messages)
    (Line.mem_cores.mpr ⟨e, he, rfl, rfl⟩)
  exact ⟨nodup, placed⟩

theorem Lawful.giveUpTraffic (s : State) (l : LineId) : Lawful s (s.giveUpTraffic l) := by
  obtain ⟨lost, idle⟩ := Lawful.loseCircuit (l := l) s false
  exact (lost.trans (.moveEntries idle)).trans (Eases.foldl (fun t i => .conflictPart t l i) slots _).lawful

theorem Lawful.foldl {α : Type} {f : State → α → State} (h : ∀ t a, Lawful t (f t a)) (as : List α) :
    ∀ s : State, Lawful s (as.foldl f s) := by
  induction as with
  | nil => exact fun s => .refl s
  | cons a rest ih => exact fun s => (h s a).trans (ih _)

theorem Lawful.takeAnnounce (s : State) (source : Station) (a : Announcement) :
    Lawful s (s.takeAnnounce source a) := by
  have check : ∀ t l, Lawful t (t.checkConflict a l) := fun t l =>
    iteInduction (fun _ => (Eases.loseChannel t l).lawful.trans (.giveUpTraffic _ l)) fun _ => .refl t
  have conflicts : ∀ t, Lawful t (t.conflicts source a) := fun t =>
    iteInduction (fun _ => .foldl check lineIds t) fun _ => .refl t
  unfold State.takeAnnounce
  split
  · exact .refl s
  · exact (((Eases.meet s source a).then (.adopt _ a)).lawful.trans (conflicts _)).trans (Eases.handReports _).lawful

/-! ## Resets and reads -/

/-- A card whose lines are empty, without a claim window, keeps the three laws. -/
theorem Lawful.of_bare (circuit : ∀ m, (t.line m).circuit = none) (calls : ∀ m, (t.line m).callList = [])
    (slots : ∀ m, (t.line m).bulletinSlots = []) (claims : t.claims = []) : Lawful s t := by
  have cores : ∀ m, (t.line m).cores = [] := fun m => by rw [Line.cores, calls]; rfl
  refine ⟨fun _ => ?_, fun _ _ => ?_, fun _ m i hi => ?_⟩
  · refine State.shipsOnce_iff.mpr ⟨?_, fun m d hd => ?_, ?_⟩
    · simp [State.shipsHeld_eq, cores]
    · rw [circuit] at hd
      cases hd
    · simp [State.shipsHeld_eq, cores]
  · refine State.messagesPlaced_iff.mpr ⟨fun m p hp => ?_, fun m d j hd => ?_, fun w hw => ?_⟩
    · rw [cores] at hp
      cases hp
    · rw [circuit] at hd
      cases hd
    · rw [claims] at hw
      cases hw
  · rw [slots] at hi
    cases hi

theorem Lawful.restarted (s : State) : Lawful s s.restarted := by
  have line : ∀ m, ∃ mode cycle, s.restarted.line m = { Line.reset with mode := mode, cycle := cycle } := fun m =>
    ⟨_, _, vecOf_get _ _ m⟩
  refine .of_bare (fun m => ?_) (fun m => ?_) (fun m => ?_) rfl
  all_goals
    obtain ⟨mode, cycle, e⟩ := line m
    rw [e]
    rfl

theorem Lawful.reset (s : State) (strap : Station) (pending : List Instr) :
    Lawful s { State.reset with pending := pending, strap := strap } := by
  refine .of_bare (fun m => ?_) (fun m => ?_) (fun m => ?_) rfl
  all_goals simp [State.line, State.reset, Line.reset, Line.bulletinSlots]

/-- The lines of a card given other modes. -/
theorem Eases.setModes {f : LineId → Mode} (lines : ∀ m, t.line m = { s.line m with mode := f m })
    (records : t.records = s.records) (claims : t.claims = s.claims) : Eases [] s t where
  lines m := by
    rw [lines]
    exact .of_cores rfl rfl fun _ => id
  records := .of_records records
  claims w hw := ⟨w, claims ▸ hw, rfl, rfl⟩

theorem Eases.settleConfig (s : State) (c : CardConfig) : Eases [] s (s.settleConfig c) :=
  .setModes (fun m => vecOf_get _ _ m) rfl rfl

theorem Eases.settleFault (s : State) : Eases [] s s.settleFault :=
  .setModes (fun m => vecOf_get _ _ m) rfl rfl

/-! ## The commands -/

theorem Lawful.of_eq (hl : t.lines = s.lines) (hr : t.records = s.records) (hc : t.claims = s.claims) : Lawful s t :=
  (Eases.of_eq hl hr hc).lawful

theorem Eases.noteClaim (s : State) (key : Key) (bid : NotedClaim) : Eases [] s { s with
    claims := s.claims.map fun w => if w.key = key then w.note bid s.strap else w } where
  lines m := .refl _
  records := .of_records rfl
  claims w hw := by
    obtain ⟨w0, hw0, rfl⟩ := List.mem_map.mp hw
    refine ⟨w0, hw0, ?_⟩
    unfold ClaimWindow.note
    split
    · split <;> exact ⟨rfl, rfl⟩
    · exact ⟨rfl, rfl⟩

theorem Eases.answerQuery (s : State) (dest : Station) (selector : Nat) : Eases [] s (s.answerQuery dest selector) := by
  unfold State.answerQuery
  split
  · exact .offerFrame s _
  · split
    · exact .offerFrame s _
    · exact .refl s

theorem Lawful.receive {act : State → State} (h : Lawful s (act s)) (k : FrameKind) (hd : Header)
    (poster : Station) (ok : Bool) : Lawful s (s.receive k hd poster ok act) :=
  State.receive_keeps (.refl s) (.of_eq rfl rfl rfl) (.of_eq rfl rfl rfl) h k hd poster ok

/-- Every command keeps the laws of entries, messages and parts on air (R25, R133, R71). -/
theorem exec_lawful (c : Instr) (s : State) : ∃ t, exec c s = .next t ∧ Lawful s t := by
  cases c with
  | pinReset pins => exact ⟨_, rfl, .reset s _ _⟩
  | configurationReadEnd result =>
    refine ⟨_, rfl, iteInduction (fun _ => ?_) fun _ => .refl s⟩
    split
    · exact ((Eases.settleConfig s _).then (.offerFrame _ _)).lawful
    · exact ((Eases.settleFault s).then (.offerFrame _ _)).lawful
  | startIntervalExpiry => exact ⟨_, rfl, .of_eq rfl rfl rfl⟩
  | boundary l => exact ⟨_, rfl, iteInduction (fun _ => .boundary s) fun _ => .refl s⟩
  | outcomeRecord line => exact ⟨_, rfl, (Eases.takeOutcome s _ _).lawful⟩
  | secondTimerExpiry => exact ⟨_, rfl, iteInduction (fun _ => (Eases.secondPasses s).lawful) fun _ => .refl s⟩
  | time hd minute second => exact ⟨_, rfl, .receive (Eases.setClock s _ _).lawful _ _ _ _⟩
  | loadTimerExpiry key =>
    refine ⟨_, rfl, ?_⟩
    split
    · next i r h =>
      obtain ⟨-, hr⟩ := State.recordUnder_spec h
      exact iteInduction (fun hl => (Lawful.endLoading hr hl.1 _).trans (Eases.handReports _).lawful) fun _ => .refl s
    · exact .refl s
  | claimWindowExpiry key =>
    refine ⟨_, rfl, ?_⟩
    split
    · next w hw => exact .resolveClaim (List.mem_of_find?_eq_some hw)
    · exact .refl s
  | offer => exact ⟨_, rfl, .receive (.takeOffer s _ _ _ _ _) _ _ _ _⟩
  | claim hd key grade => exact ⟨_, rfl, .receive (Eases.noteClaim s key _).lawful _ _ _ _⟩
  | takeReceived hd key =>
    refine ⟨_, rfl, .receive ?_ _ _ _ _⟩
    split
    · exact (Eases.takeEcho s key).lawful
    · exact .takeFromOther s _ key
  | text => exact ⟨_, rfl, .receive (.takeText s _ _ _ _) _ _ _ _⟩
  | post => exact ⟨_, rfl, .receive (.takePost s _ _ _ _) _ _ _ _⟩
  | withdraw hd key =>
    refine ⟨_, rfl, .receive ?_ _ _ _ _⟩
    split
    · next h => exact .withdrawRecord (State.recordUnder_spec h).2
    · exact .refl s
  | silence hd mask =>
    have changed : Eases [] s { s with silenced := s.silenced ||| mask } := .of_eq rfl rfl rfl
    exact ⟨_, rfl, .receive
      (act := fun s => ({ s with silenced := s.silenced ||| mask } : State).leaveAnswers mask _)
      (changed.then (.leaveAnswers _ mask _)).lawful _ _ _ _⟩
  | resume hd mask =>
    have changed : Eases [] s { s with silenced := s.silenced &&& ~~~mask } := .of_eq rfl rfl rfl
    exact ⟨_, rfl, .receive
      (act := fun s => ({ s with silenced := s.silenced &&& ~~~mask } : State).leaveAnswers mask _)
      (changed.then (.leaveAnswers _ mask _)).lawful _ _ _ _⟩
  | stopLine | startLine | patternOn | patternOff =>
    exact ⟨_, rfl, .receive (Eases.takeOrder s _ _ _).lawful _ _ _ _⟩
  | restart hd =>
    exact ⟨_, rfl, .receive (act := fun s => s.restarted.handReports.offerAnnounce false true)
      ((Lawful.restarted s).trans ((Eases.handReports _).then (.offerFrame _ _)).lawful) _ _ _ _⟩
  | announce => exact ⟨_, rfl, .receive (.takeAnnounce s _ _) _ _ _ _⟩
  | statusQuery => exact ⟨_, rfl, .receive (Eases.answerQuery s _ _).lawful _ _ _ _⟩
  | badFrame check =>
    have bad : Lawful s s.bumpBad := .of_eq rfl rfl rfl
    refine ⟨_, rfl, iteInduction (fun _ => ?_) fun _ => .refl s⟩
    cases check with
    | crc => exact bad.trans (.abortAllClaims _)
    | kind | length | source => exact bad
  | ignoredFrame => exact ⟨_, rfl, .refl s⟩
  | contention => exact ⟨_, rfl, iteInduction (fun _ => .refl s) fun _ => .of_eq rfl rfl rfl⟩
  | contentionLost | sendingCutShort => exact ⟨_, rfl, .of_eq rfl rfl rfl⟩
  | sendingComplete =>
    refine ⟨_, rfl, iteInduction (fun _ => ?_) fun _ => .refl s⟩
    exact Lawful.trans (t := { s with queue := s.queue.filter fun e => !e.onWire }) (.of_eq rfl rfl rfl)
      (Eases.handReports _).lawful
  | reportHanded => exact ⟨_, rfl, (Eases.handReport s).lawful⟩

theorem step_lawful (run : step s = .next t) : Lawful s t := by
  unfold step at run
  split at run
  · cases run; exact .refl s
  · next c rest _ =>
    obtain ⟨u, ran, lawful⟩ := exec_lawful c { s with pending := rest }
    cases ran.symm.trans run
    exact Lawful.trans (t := { s with pending := rest }) (.of_eq rfl rfl rfl) lawful

/-- Settles O57: every stage of a boundary, and every other command, takes on no new duty under the three laws, or
takes it on where they ask it: a message taken, a call begun, a message or a part brought on air, an entry moved. -/
theorem stepKeepsShips : Obligations.StepKeepsShips := by
  unfold Obligations.StepKeepsShips
  exact ⟨fun s t h run => (step_lawful run).ships h, fun s t hs hm run => (step_lawful run).messages hs hm,
    fun s t h run => (step_lawful run).air h⟩

end Sys2Proof.Machine

namespace Sys2Proof.Machine

variable {l : LineId} {s t u v : State} {c : Circuit}

/-! ## The settling stage -/

/-- An answered cycle settles with an outcome that its kind recognises exactly where that outcome is kept; NONE and
GARBLED are also what it settles with for want of one (R6). -/
theorem settledOutcome_iff {cycle : Cycle} {kept : Option Outcome} {o : Outcome} (expects : cycle.expectsAnswer = true)
    (recognises : cycle.recognises o = true) (answer : o ≠ .noAnswer) (clean : o ≠ .garbled) :
    (settledOutcome cycle kept).getD .noAnswer = o ↔ kept = some o := by
  rw [settledOutcome, if_pos expects, Option.getD_some]
  cases kept with
  | none =>
    rw [Option.getD_none]
    split
    · exact ⟨fun h => absurd h.symm answer, nofun⟩
    · exact ⟨fun h => absurd h.symm clean, nofun⟩
  | some k =>
    rw [Option.getD_some, Option.some.injEq]
    split
    · exact Iff.rfl
    · next unknown =>
      exact ⟨fun h => absurd h.symm clean, fun h => absurd (h ▸ recognises) unknown⟩

/-- The outcome that the ended cycle of a line settles with (R6). -/
def Line.heard (x : Line) (ended : Cycle) : Outcome := (settledOutcome ended x.outcome).getD .noAnswer

section heard

variable (x : Line)

theorem Line.heard_call (ship : Nat) : x.heard (.call ship) = .callAnswer ↔ x.outcome = some .callAnswer :=
  settledOutcome_iff rfl rfl nofun nofun

theorem Line.heard_align : x.heard .align = .edgeIn ↔ x.outcome = some .edgeIn :=
  settledOutcome_iff rfl rfl nofun nofun

theorem Line.heard_ident (digits : List Byte) :
    x.heard .ident = .ident digits ↔ x.outcome = some (.ident digits) :=
  settledOutcome_iff rfl rfl nofun nofun

theorem Line.heard_block (chars : List Byte) : x.heard (.block chars) = .good ↔ x.outcome = some .good :=
  settledOutcome_iff rfl rfl nofun nofun

theorem Line.heard_idleblock : x.heard .idleblock = .good ↔ x.outcome = some .good :=
  settledOutcome_iff rfl rfl nofun nofun

end heard

/-- The card as its line's circuit settles the ended cycle: the outcome is taken up (R6). -/
def State.heeding (s : State) (l : LineId) : State := s.modLine l fun x => { x with outcome := none }

theorem State.heeding_line (s : State) (l : LineId) : (s.heeding l).line l = { s.line l with outcome := none } :=
  State.line_modLine_self ..

theorem State.heeding_circuit (hc : (s.line l).circuit = some c) : ((s.heeding l).line l).circuit = some c := by
  rw [State.heeding_line]
  exact hc

/-- A cycle of a circuit is settled by the circuit (R6). -/
theorem State.settled_eq {ended : Cycle} (hc : (s.line l).circuit = some c) (he : (s.line l).ended = some ended)
    (bend : ended ≠ .bend) (notice : ended ≠ .notice) :
    s.settled l = (s.heeding l).settleCircuit l c ended ((s.line l).heard ended) := by
  have circuit := State.heeding_circuit hc
  unfold State.settled State.settle Line.settledWith
  rw [he]
  dsimp only [Option.bind_some]
  split
  · next h => cases h
  · next h => cases h; exact absurd rfl bend
  · next h => cases h; exact absurd rfl notice
  · next h =>
    cases h
    rw [show ((s.modLine l fun x => { x with outcome := none }).line l).circuit = some c from circuit]
    rfl

/-! ### A failed attempt -/

/-- Of its line a failed attempt touches the call list alone (R29). -/
theorem State.countAttempt_calls (s : State) (l : LineId) (ship : Nat) (reason : Reason) :
    ∃ calls, (s.countAttempt l ship reason).line l = { s.line l with callList := calls } := by
  cases h : (s.line l).entry? ship with
  | none => exact ⟨_, by rw [State.countAttempt_none h]⟩
  | some e => exact ⟨_, State.countAttempt_line h reason⟩

/-- What a failed attempt does to the call list and to the messages of a freed entry (R29). -/
theorem State.countAttempt_failed (s : State) (l : LineId) (ship : Nat) (reason : Reason) :
    attemptFailed (s.line l).callList (s.countAttempt l ship reason) l ship reason := by
  refine ⟨fun none' => by rw [State.countAttempt_none none'], fun e he => ?_⟩
  have he : (s.line l).entry? ship = some e := he
  have calls : ((s.countAttempt l ship reason).line l).callList = callsAttempted (s.line l).callList e reason := by
    rw [State.countAttempt_line he]
  have ship' := Line.entry_ship he
  rw [calls, callsAttempted, ship']
  refine ⟨fun third => ⟨if_pos (.inl third), fun i hi => ?_⟩, fun _ empty => if_pos (.inr empty),
    fun few full => if_neg fun h => h.elim (by omega) full⟩
  have returned : s.countAttempt l ship reason = (s.freeEntry l ship).returnMessages reason e.messages := by
    rw [State.countAttempt, he]
    exact if_pos third
  obtain ⟨-, waits, spent⟩ := State.returnMessages_spec reason e.messages (s.freeEntry l ship)
  rw [returned]
  refine ⟨waits i hi, fun r hr => ?_⟩
  obtain ⟨r0, hr0, -⟩ := (PartWork.returnMessages (l := l) reason e.messages (s.freeEntry l ship)).records i r hr
  obtain ⟨r', hr', -, done'⟩ := spent i r0 hr0
  rw [Option.some.inj (hr.symm.trans hr')]
  exact done' (.inl hi)

/-- Below the third attempt of each entry of a ship, a failed attempt leaves the records. -/
theorem State.countAttempt_records {ship : Nat} {reason : Reason}
    (few : ∀ e ∈ (s.line l).callList, e.ship = ship → e.attempts + 1 < 3) :
    (s.countAttempt l ship reason).records = s.records := by
  unfold State.countAttempt
  split
  · rfl
  · next e he =>
    have below : e.attempts + 1 < Config.attemptLimit := few e (List.mem_of_find?_eq_some he) (Line.entry_ship he)
    rw [if_neg (Nat.not_le.mpr below)]
    split <;> rfl

/-- A record whose work is over, and a report, stand over a failed attempt. -/
theorem State.countAttempt_kept (s : State) (l : LineId) (ship : Nat) (reason : Reason) :
    (∀ p ∈ s.reports, p ∈ (s.countAttempt l ship reason).reports)
      ∧ ∀ i r, s.record i = some r → r.spent →
        ∃ r', (s.countAttempt l ship reason).record i = some r' ∧ r'.spent := by
  unfold State.countAttempt
  split
  · exact ⟨fun _ => id, fun i r hr spent => ⟨r, hr, spent⟩⟩
  · next e _ =>
    split
    · obtain ⟨kept, -, records⟩ := State.returnMessages_spec reason e.messages (s.freeEntry l ship)
      refine ⟨kept, fun i r hr spent => ?_⟩
      obtain ⟨r', hr', -, done'⟩ := records i r hr
      exact ⟨r', hr', done' (.inr spent)⟩
    · split
      · exact ⟨fun _ => id, fun i r hr spent => ⟨r, hr, spent⟩⟩
      · exact ⟨fun _ => id, fun i r hr spent => ⟨r, hr, spent⟩⟩

/-- The attempt that failed, where the entry is not recalled to the head: the clear places it no further (R45). -/
theorem State.placeCleared_attempted {ship : Nat} {reason : Reason}
    (h : ∀ e, (s.line l).entry? ship = some e → e.recalled = false ∨ 3 ≤ e.attempts + 1 ∨ e.messages = []) :
    (s.countAttempt l ship reason).placeCleared l ship true = s.countAttempt l ship reason := by
  cases he : (s.line l).entry? ship with
  | none => rw [State.countAttempt_none he, State.placeCleared_none he]
  | some e =>
    have line := State.countAttempt_line he reason
    have ship' := Line.entry_ship he
    have entry : ((s.countAttempt l ship reason).line l).entry? ship
        = (callsAttempted (s.line l).callList e reason).find? fun e' => e'.ship = e.ship := by
      rw [line, Line.entry?, ship']
    by_cases freed : 3 ≤ e.attempts + 1 ∨ e.messages = []
    · refine State.placeCleared_none (entry.trans ?_) _
      rw [callsAttempted, if_pos freed, filter_ship_filter]
    · have stays : e.recalled = false := (h e he).resolve_right freed
      have found : ((s.countAttempt l ship reason).line l).entry? ship
          = some { e with attempts := e.attempts + 1, retryHold := 60, lastFailure := some reason } := by
        rw [entry, callsAttempted, if_neg freed, List.find?_append, filter_ship_filter]
        simp
      have full : e.messages ≠ [] := fun empty => freed (.inr empty)
      rw [State.placeCleared, found]
      simp [full, stays]

/-! ### The operations of a circuit before LINKED, and its clear -/

theorem State.settleAlign_calls (s : State) (l : LineId) (c : Circuit) (o : Outcome) :
    ((s.settleAlign l c o).line l).callList = (s.line l).callList := by
  rw [State.settleAlign, State.setCircuit, State.line_modLine_self]

theorem State.settleIdent_calls (s : State) (l : LineId) (c : Circuit) (o : Outcome) :
    ((s.settleIdent l c o).line l).callList = (s.line l).callList := by
  have set : ∀ d, ((s.setCircuit l d).line l).callList = (s.line l).callList := fun d => by
    rw [State.setCircuit, State.line_modLine_self]
  unfold State.settleIdent
  split
  · split
    · rw [State.modCounters, State.line_modLine_self]
      exact set _
    · exact set _
  · split
    · rfl
    · exact set _

section operation

variable {ended : Cycle} (hc : (s.line l).circuit = some c) (he : (s.line l).ended = some ended)
include hc he

/-- A CALL unanswered: the call goes on, or fails with an attempt after the tenth (R31). -/
theorem State.settled_call {ship : Nat} (state : c.state = .calling) (call : ended = .call ship)
    (unanswered : (s.line l).outcome ≠ some .callAnswer) :
    (c.callCycles < 10 → s.settled l = s.heeding l)
      ∧ (10 ≤ c.callCycles → s.settled l = (((s.heeding l).setCircuit l none).modCounters l fun n =>
          { n with callsFailed := bump n.callsFailed }).countAttempt l c.ship .noAnswer) := by
  subst call
  rw [State.settled_eq hc he nofun nofun]
  have settle : (s.heeding l).settleCircuit l c (.call ship) ((s.line l).heard (.call ship))
      = (s.heeding l).settleCall l c ((s.line l).heard (.call ship)) := by
    simp only [State.settleCircuit, state]
  rw [settle, State.settleCall, if_neg (mt ((s.line l).heard_call ship).mp unanswered)]
  exact ⟨fun few => if_pos few, fun ten => if_neg (Nat.not_lt.mpr ten)⟩

/-- An ALIGN of the search (R33). -/
theorem State.settled_align (state : c.state = .aligning) (align : ended = .align) :
    ((s.settled l).line l).callList = (s.line l).callList
      ∧ ((s.line l).outcome = some .edgeIn → s.settled l = (s.heeding l).setCircuit l
        (some { c with state := .identifying, echoOffset := c.trialOffset, identTries := 0 }))
      ∧ ((s.line l).outcome ≠ some .edgeIn → c.trialOffset < 44 →
        s.settled l = (s.heeding l).setCircuit l (some { c with trialOffset := c.trialOffset + 4 }))
      ∧ ((s.line l).outcome ≠ some .edgeIn → 44 ≤ c.trialOffset →
        s.settled l = (s.heeding l).setCircuit l (some (c.toClearing .lost))) := by
  subst align
  rw [State.settled_eq hc he nofun nofun]
  have settle : (s.heeding l).settleCircuit l c .align ((s.line l).heard .align)
      = (s.heeding l).settleAlign l c ((s.line l).heard .align) := by
    simp only [State.settleCircuit, state]
  rw [settle]
  refine ⟨by rw [State.settleAlign_calls, State.heeding_line], ?_⟩
  rw [State.settleAlign]
  refine ⟨fun edge => ?_, fun noEdge more => ?_, fun noEdge last => ?_⟩
  · rw [if_pos ((s.line l).heard_align.mpr edge)]
  · rw [if_neg (mt (s.line l).heard_align.mp noEdge), if_pos (show c.trialOffset < Config.lastOffset from more)]
  · rw [if_neg (mt (s.line l).heard_align.mp noEdge),
      if_neg (show ¬ c.trialOffset < Config.lastOffset from Nat.not_lt.mpr last)]

/-- An IDENT (R34, R35). -/
theorem State.settled_ident (state : c.state = .identifying) (ident : ended = .ident) :
    ((s.settled l).line l).callList = (s.line l).callList
      ∧ (∀ digits : List Byte, (s.line l).outcome = some (.ident digits) →
        (digits.map BitVec.toNat = shipDigits c.ship → s.settled l = ((s.heeding l).setCircuit l
          (some (c.linkedWith (s.lineConfig l).q0))).modCounters l fun n =>
            { n with circuitsLinked := bump n.circuitsLinked })
        ∧ (digits.map BitVec.toNat ≠ shipDigits c.ship →
          s.settled l = (s.heeding l).setCircuit l (some (c.toClearing .wrongStation))))
      ∧ ((∀ digits, (s.line l).outcome ≠ some (.ident digits)) →
        (c.identTries < 2 → s.settled l = s.heeding l)
          ∧ (2 ≤ c.identTries → s.settled l = (s.heeding l).setCircuit l (some (c.toClearing .lost)))) := by
  subst ident
  rw [State.settled_eq hc he nofun nofun]
  have settle : (s.heeding l).settleCircuit l c .ident ((s.line l).heard .ident)
      = (s.heeding l).settleIdent l c ((s.line l).heard .ident) := by
    simp only [State.settleCircuit, state]
  rw [settle]
  refine ⟨by rw [State.settleIdent_calls, State.heeding_line], fun digits heard => ?_, fun unheard => ?_⟩
  · rw [((s.line l).heard_ident digits).mpr heard]
    exact ⟨fun same => if_pos same, fun other => if_neg other⟩
  · have other : (s.heeding l).settleIdent l c ((s.line l).heard .ident)
        = if c.identTries < 2 then s.heeding l else (s.heeding l).setCircuit l (some (c.toClearing .lost)) := by
      cases ho : (s.line l).heard .ident with
      | ident digits => exact absurd (((s.line l).heard_ident digits).mp ho) (unheard digits)
      | _ => rfl
    rw [other]
    exact ⟨fun more => if_pos more, fun last => if_neg (Nat.not_lt.mpr last)⟩

/-- A CLEAR (R45). -/
theorem State.settled_clear (state : c.state = .clearing) (clear : ended = .clear) :
    (c.clearCycles < 2 → s.settled l = s.heeding l)
      ∧ (2 ≤ c.clearCycles → s.settled l = (s.heeding l).completeClear l c) := by
  subst clear
  rw [State.settled_eq hc he nofun nofun]
  have settle : (s.heeding l).settleCircuit l c .clear ((s.line l).heard .clear)
      = if c.clearCycles < 2 then s.heeding l else (s.heeding l).completeClear l c := by
    simp only [State.settleCircuit, state]
  rw [settle]
  exact ⟨fun more => if_pos more, fun second => if_neg (Nat.not_lt.mpr second)⟩

end operation

/-- The line of a circuit set as the ended cycle is settled. -/
theorem State.heeding_setCircuit (s : State) (l : LineId) (c : Option Circuit) :
    ((s.heeding l).setCircuit l c).line l = { s.line l with outcome := none, circuit := c } := by
  rw [State.setCircuit, State.line_modLine_self, State.heeding_line]

/-- A clear with a failure cause counts a failed attempt, where its entry is not recalled to the head (R45, R49). -/
theorem State.completeClear_failed {reason : Reason} (cause : c.clearCause.reason = some reason)
    (h : ∀ e, (s.line l).entry? c.ship = some e → e.recalled = false ∨ 3 ≤ e.attempts + 1 ∨ e.messages = []) :
    attemptFailed (s.line l).callList (s.completeClear l c) l c.ship reason := by
  have clear : s.completeClear l c = (((s.setCircuit l none).modCounters l fun n =>
      { n with callsFailed := bump n.callsFailed }).countAttempt l c.ship reason).placeCleared l c.ship true := by
    simp only [State.completeClear, cause]
  have line : ((s.setCircuit l none).modCounters l fun n => { n with callsFailed := bump n.callsFailed }).line l
      = { s.line l with
          circuit := none
          counters := { (s.line l).counters with callsFailed := bump (s.line l).counters.callsFailed } } := by
    rw [State.modCounters, State.line_modLine_self, State.setCircuit, State.line_modLine_self]
  rw [clear]
  generalize (s.setCircuit l none).modCounters l _ = u at line ⊢
  have calls : (s.line l).callList = (u.line l).callList := by rw [line]
  rw [State.placeCleared_attempted fun e he => h e (by rw [Line.entry?, calls]; exact he), calls]
  exact u.countAttempt_failed l c.ship reason

/-- A circuit whose entry is empty, in CALLING and before LINKED; every other stands (R28). -/
theorem State.emptiedCheck_spec {e : Entry} (hc : (s.line l).circuit = some c)
    (he : (s.line l).entry? c.ship = some e) :
    (e.messages = [] → c.state = .calling → s.emptiedCheck l = (s.setCircuit l none).freeEntry l c.ship)
      ∧ (e.messages = [] → c.state = .aligning ∨ c.state = .identifying →
        s.emptiedCheck l = s.setCircuit l (some (c.toClearing .ordinary)))
      ∧ (e.messages = [] → c.state = .linked ∨ c.state = .parked ∨ c.state = .rephasing ∨ c.state = .clearing →
        s.emptiedCheck l = s)
      ∧ (e.messages ≠ [] → s.emptiedCheck l = s) := by
  refine ⟨fun empty calling => ?_, fun empty state => ?_, fun empty state => ?_, fun full => ?_⟩
  · simp [State.emptiedCheck, hc, he, empty, calling]
  · rcases state with h | h <;> simp [State.emptiedCheck, hc, he, empty, h]
  · rcases state with h | h | h | h <;> simp [State.emptiedCheck, hc, he, empty, h]
  · simp [State.emptiedCheck, hc, he, full]

end Sys2Proof.Machine

namespace Sys2Proof.Machine

variable {l : LineId} {s t u : State} {c : Circuit} {p : State × Cycle}

/-! ## The choice, as the call list and the circuit see it -/

/-- An entry without its recall mark. -/
def Entry.unrecalled (e : Entry) : Entry := { e with recalled := false }

/-- What a choice leaves of its line: the entries but for recall marks, and a circuit that is not CALLING, with its
ship and its q (R105, R30). -/
structure Choosing (l : LineId) (s t : State) : Prop where
  calls : (t.line l).callList.map Entry.unrecalled = (s.line l).callList.map Entry.unrecalled
  circuit : ∀ c, (s.line l).circuit = some c → c.state ≠ .calling →
    ∃ c', (t.line l).circuit = some c' ∧ c'.state ≠ .calling ∧ c'.ship = c.ship ∧ c'.q = c.q

theorem Choosing.of_eq (calls : (t.line l).callList = (s.line l).callList)
    (circuit : (t.line l).circuit = (s.line l).circuit) : Choosing l s t :=
  ⟨by rw [calls], fun c hc state => ⟨c, circuit.trans hc, state, rfl, rfl⟩⟩

theorem Choosing.refl (s : State) : Choosing l s s := .of_eq rfl rfl

theorem Choosing.trans (h1 : Choosing l s t) (h2 : Choosing l t u) : Choosing l s u := by
  refine ⟨h2.calls.trans h1.calls, fun c hc state => ?_⟩
  obtain ⟨c1, hc1, state1, ship1, q1⟩ := h1.circuit c hc state
  obtain ⟨c2, hc2, state2, ship2, q2⟩ := h2.circuit c1 hc1 state1
  exact ⟨c2, hc2, state2, ship2.trans ship1, q2.trans q1⟩

theorem PartWork.choosing (h : PartWork l s t) : Choosing l s t := .of_eq h.calls h.circuit

theorem Choosing.modLine (s : State) {f : Line → Line} (circuit : ∀ x, (f x).circuit = x.circuit)
    (calls : ∀ x, (f x).callList = x.callList) : Choosing l s (s.modLine l f) := by
  refine .of_eq ?_ ?_
  · rw [State.line_modLine_self, calls]
  · rw [State.line_modLine_self, circuit]

theorem Choosing.modArbiter (s : State) (f : Arbiter → Arbiter) : Choosing l s (s.modArbiter l f) :=
  .modLine s (fun _ => rfl) fun _ => rfl

theorem Choosing.modCounters (s : State) (f : LineCounters → LineCounters) : Choosing l s (s.modCounters l f) :=
  .modLine s (fun _ => rfl) fun _ => rfl

/-- A circuit goes on, out of CALLING, with its ship and its q. -/
theorem Choosing.setCircuit (hc : (s.line l).circuit = some c) {c' : Circuit} (ship : c'.ship = c.ship)
    (q : c'.q = c.q) (state : c.state ≠ .calling → c'.state ≠ .calling) : Choosing l s (s.setCircuit l (some c')) := by
  refine ⟨by rw [State.setCircuit, State.line_modLine_self], fun d hd live => ?_⟩
  cases hc.symm.trans hd
  exact ⟨c', State.setCircuit_circuit .., state live, ship, q⟩

/-- A call that has just begun gives way (R107). -/
theorem Choosing.dropCall (hc : (s.line l).circuit = some c) (state : c.state = .calling) :
    Choosing l s (s.setCircuit l none) := by
  refine ⟨by rw [State.setCircuit, State.line_modLine_self], fun d hd live => ?_⟩
  cases hc.symm.trans hd
  exact absurd state live

theorem Choosing.counted (h : Choosing l s p.1) : Choosing l s (countedTurn l p).1 := by
  unfold countedTurn State.countTurn
  dsimp only
  exact h.trans (.modArbiter _ _)

theorem Choosing.beginSending (s : State) (i : Slot) : Choosing l s (s.beginSending l i).1 := by
  rw [State.beginSending_fst]
  exact .of_eq rfl rfl

theorem Choosing.continueSending (s : State) (i : Slot) : Choosing l s (s.continueSending l i).1 := by
  unfold State.continueSending
  dsimp only
  repeat' split
  all_goals exact .of_eq rfl rfl

theorem Choosing.startCall (h : (s.line l).circuit = none) (ship : Nat) : Choosing l s (s.startCall l ship).1 := by
  refine ⟨?_, fun c hc => by rw [h] at hc; cases hc⟩
  show ((State.modEntry _ l ship _).line l).callList.map Entry.unrecalled = _
  rw [State.modEntry, State.line_modLine_self, State.setCircuit, State.line_modLine_self, List.map_map]
  refine List.map_congr_left fun e _ => ?_
  rw [Function.comp_apply]
  split <;> rfl

section circuit

variable (hc : (s.line l).circuit = some c)
include hc

theorem Choosing.handPark : Choosing l s (s.handPark l c).1 := .setCircuit hc rfl rfl fun _ => nofun

theorem Choosing.handOperation : Choosing l s (s.handOperation l c).1 := by
  unfold State.handOperation
  split
  · exact .setCircuit hc rfl rfl id
  · exact .refl s
  · exact .setCircuit hc rfl rfl id
  · split
    · exact .setCircuit hc rfl rfl id
    · exact .refl s
  · exact .setCircuit hc rfl rfl id
  · exact .refl s
  · exact .refl s

theorem Choosing.handBlock (i : Slot) : Choosing l s (s.handBlock l c i).1 := by
  unfold State.handBlock
  split
  · exact .refl s
  · dsimp only
    generalize hv : (s.modRecord i fun r => if r.state = .ready then { r with state := .onAir } else r) = v
    have aired : Choosing l s v := hv ▸ .of_eq rfl rfl
    have circuit : (v.line l).circuit = some c := hv ▸ hc
    refine aired.trans (.trans (.setCircuit circuit ?_ ?_ fun _ => ?_) (.modCounters (l := l) _ _))
    · exact rfl
    · exact rfl
    · exact nofun

theorem Choosing.handCut : Choosing l s (s.handCut l c).1 := by
  unfold State.handCut
  dsimp only
  refine .trans (.setCircuit hc ?_ ?_ fun _ => ?_) (.modCounters (l := l) _ _)
  · dsimp only; split <;> rfl
  · dsimp only; split <;> rfl
  · nofun

theorem Choosing.handIdle {d : Circuit} (ship : d.ship = c.ship) (q : d.q = c.q)
    (state : c.state ≠ .calling → d.state ≠ .calling) : Choosing l s (s.handIdle l d).1 := by
  unfold State.handIdle
  split
  · exact .setCircuit hc ship q fun _ => nofun
  · exact .setCircuit hc ship q state

theorem Choosing.handTraffic : Choosing l s (s.handTraffic l c).1 := by
  unfold State.handTraffic
  split
  · exact .handCut hc
  · split
    · exact .handBlock hc _
    · split
      · exact .handIdle hc rfl rfl fun _ => nofun
      · exact .handIdle hc rfl rfl id

end circuit

/-! ### The sources -/

theorem Choosing.handNotice (s : State) : Choosing l s (s.handNotice l).1 :=
  .modLine (f := fun x => { x with window := { x.window with noticeStep := x.window.noticeStep + 1 } }) s
    (fun _ => rfl) fun _ => rfl

theorem Choosing.handKeep (s : State) : Choosing l s (s.handKeep l).1 :=
  .modCounters s fun n => { n with keepsSent := bump n.keepsSent }

theorem Choosing.serveFiller (s : State) : Choosing l s (s.serveFiller l).1 := by
  unfold State.serveFiller
  dsimp only
  split
  · dsimp only
    exact .modLine s (fun _ => rfl) fun _ => rfl
  · split
    · dsimp only
      exact .modLine s (fun _ => rfl) fun _ => rfl
    · exact .refl s

theorem Choosing.serveFree (s : State) : Choosing l s (s.serveFree l).1 := by
  unfold State.serveFree
  split
  · exact .beginSending s _
  · exact .serveFiller s

/-- A call starts on a line without a circuit alone (R118). -/
theorem Choosing.serveCall (s : State) : Choosing l s (s.serveCall l).1 := by
  unfold State.serveCall
  split
  · next e he =>
    unfold State.callable? at he
    split at he
    · next hc => exact .startCall hc e.ship
    · cases he
  · exact .serveFree s

theorem Choosing.serveTraffic (s : State) : Choosing l s (s.serveTraffic l).1 := by
  unfold State.serveTraffic
  split
  · next c hc =>
    split
    · exact .counted (.handTraffic hc)
    · exact .serveCall s
  · exact .serveCall s

theorem Choosing.beginUnit (s : State) (a : WindowAnswer) : Choosing l s (s.beginUnit l a).1 := by
  cases a with
  | part i => exact .beginSending s i
  | notice => exact .handNotice s
  | nothing => exact .serveTraffic s

theorem Choosing.readTable (hc : (s.line l).circuit = some c) : Choosing l s (s.readTable l c).1 := by
  have circuit : ∀ f g, (((s.modArbiter l f).modArbiter l g).line l).circuit = some c := fun f g =>
    ((State.modArbiter_circuit _ l g).trans (s.modArbiter_circuit l f)).trans hc
  unfold State.readTable
  dsimp only
  split
  · exact ((Choosing.modArbiter s _).trans (.modArbiter _ _)).trans (.counted (.handTraffic (circuit _ _)))
  · split
    · exact ((Choosing.modArbiter s _).trans (PartWork.closeWindow _).choosing).trans (.serveTraffic _)
    · split
      · exact ((Choosing.modArbiter s _).trans (.modArbiter _ _)).trans (.handPark (circuit _ _))
      · exact ((Choosing.modArbiter s _).trans (.modArbiter _ _)).trans (.beginUnit _ _)

theorem Choosing.askWithoutCircuit (s : State) : Choosing l s (s.askWithoutCircuit l).1 := by
  unfold State.askWithoutCircuit
  dsimp only
  split
  · exact ((Choosing.modArbiter s _).trans (PartWork.closeWindow _).choosing).trans (.serveCall _)
  · exact (Choosing.modArbiter s _).trans (.beginUnit _ _)

theorem Choosing.unitOfTurn (s : State) : Choosing l s (s.unitOfTurn l).1 := by
  unfold State.unitOfTurn
  split
  · exact (PartWork.closeWindow s).choosing.trans (.serveTraffic _)
  · exact (Choosing.modArbiter s _).trans (.beginUnit _ _)

theorem Choosing.unitBoundary (hc : (s.line l).circuit = some c) : Choosing l s (s.unitBoundary l c).1 := by
  unfold State.unitBoundary
  split
  · exact .handTraffic hc
  · split
    · exact (Choosing.modArbiter s _).trans (.handKeep _)
    · exact .readTable hc

theorem Choosing.serveWindow (s : State) : Choosing l s (s.serveWindow l).1 := by
  unfold State.serveWindow
  dsimp only
  split
  · split
    · exact .serveTraffic s
    · split
      · exact .serveTraffic s
      · exact .unitOfTurn s
    · split
      · exact .askWithoutCircuit s
      · next c hc =>
        split
        · exact .unitBoundary hc
        · exact .serveTraffic s
  · exact .serveTraffic s

theorem Choosing.serveUnit (s : State) : Choosing l s (s.serveUnit l).1 := by
  unfold State.serveUnit
  split
  · exact .continueSending s _
  · split
    · exact .serveWindow s
    · exact .handNotice s

theorem Choosing.prepareCutIn (s : State) (i : Slot) : Choosing l s (s.prepareCutIn l i).1 := by
  have ended : Choosing l s (s.modArbiter l fun a => { a.endTurn with keepOffered := false }) := .modArbiter s _
  unfold State.prepareCutIn
  dsimp only
  generalize (s.modArbiter l fun a => { a.endTurn with keepOffered := false }) = v at ended ⊢
  refine ended.trans ?_
  split
  · exact (PartWork.abandonSending v _).choosing
  · refine (PartWork.dropNotice v).choosing.trans ?_
    generalize v.dropNotice l = w
    split
    · exact .beginSending w i
    · next c hc =>
      split
      · next calling => exact (Choosing.dropCall hc calling).trans (.beginSending _ i)
      · split
        · exact .handPark hc
        · exact .handIdle hc rfl rfl id
      all_goals exact .beginSending w i

theorem Choosing.serveCutIn (s : State) : Choosing l s (s.serveCutIn l).1 := by
  unfold State.serveCutIn
  split
  · exact .continueSending s _
  · split
    · exact .prepareCutIn s _
    · exact .serveUnit s

theorem Choosing.breakSending (s : State) (i : Slot) : Choosing l s (s.breakSending l i).1 := by
  unfold State.breakSending
  dsimp only
  split
  · exact ((PartWork.withdrawPart s i true).trans (.unitEnds _)).choosing
  · exact (PartWork.withdrawPart s i true).choosing

theorem Choosing.serveCut (s : State) : Choosing l s (s.serveCut l).1 := by
  unfold State.serveCut
  split
  · next c hc => exact .counted (.handCut (Option.filter_eq_some_iff.mp hc).1)
  · split
    · exact .breakSending s _
    · exact .serveCutIn s

theorem Choosing.serveOperation (s : State) : Choosing l s (s.serveOperation l).1 := by
  unfold State.serveOperation
  split
  · next c hc => exact .counted (.handOperation (Option.filter_eq_some_iff.mp hc).1)
  · unfold State.serveKeep
    split
    · exact .handKeep s
    · exact .serveCut s

theorem Choosing.choice (s : State) : Choosing l s (s.choice l).1 := by
  unfold State.choice
  split
  · exact .refl s
  · exact .refl s
  · exact .refl s
  · exact .refl s
  · dsimp only
    exact .modLine s (fun _ => rfl) fun _ => rfl
  · unfold State.restCheck
    split
    · dsimp only
      exact .modLine s (fun _ => rfl) fun _ => rfl
    · exact .refl s
  · unfold State.chooseCycle
    dsimp only
    split
    · exact (PartWork.endTests s).choosing.trans (.serveOperation _)
    · exact ((PartWork.endTests s).choosing.trans (.serveOperation _)).trans (.modLine _ (fun _ => rfl) fun _ => rfl)

/-! ## The stages before the choice -/

/-- A circuit that the per-boundary work leaves: not PARKED, and with an entry that holds messages where the
operation is before LINKED (R28, R53). -/
def State.undisturbed (s : State) (l : LineId) : Prop :=
  ∀ c, (s.line l).circuit = some c → c.state ≠ .parked
    ∧ (c.state = .calling ∨ c.state = .aligning ∨ c.state = .identifying →
      ∀ e, (s.line l).entry? c.ship = some e → e.messages ≠ [])

theorem Entry.decreased_kept (before : List Entry) (e : Entry) :
    (e.decreased before).ship = e.ship ∧ (e.decreased before).messages = e.messages := by
  unfold Entry.decreased
  split <;> exact ⟨rfl, rfl⟩

/-- The per-boundary work of a line whose circuit it leaves decreases the retry-holds (R27). -/
theorem State.perBoundary_undisturbed (h : s.undisturbed l) (before : List Entry) (ended : Option Cycle)
    (o : Option Outcome) : ((s.perBoundary l before ended o).line l).circuit = (s.line l).circuit
      ∧ ((s.perBoundary l before ended o).line l).callList = (s.line l).callList.map (Entry.decreased before) := by
  have held : (s.decreaseHolds l before).line l
      = { s.line l with callList := (s.line l).callList.map (Entry.decreased before) } := State.line_modLine_self ..
  have quiet : ((s.decreaseHolds l before).silenceStep l ended o).emptiedCheck l = s.decreaseHolds l before := by
    generalize s.decreaseHolds l before = v at held ⊢
    have circuit : (v.line l).circuit = (s.line l).circuit := by rw [held]
    cases hc : (s.line l).circuit with
    | none =>
      have none' := circuit.trans hc
      have silence : v.silenceStep l ended o = v := by rw [State.silenceStep, none']
      rw [silence, State.emptiedCheck, none']
    | some c =>
      have hc' := circuit.trans hc
      obtain ⟨parked, full⟩ := h c hc
      have silence : v.silenceStep l ended o = v := by simp only [State.silenceStep, hc', if_neg parked]
      rw [silence]
      cases he : (v.line l).entry? c.ship with
      | none => simp [State.emptiedCheck, hc', he]
      | some e =>
        obtain ⟨-, -, later, stays⟩ := State.emptiedCheck_spec hc' he
        by_cases empty : e.messages = []
        · by_cases early : c.state = .calling ∨ c.state = .aligning ∨ c.state = .identifying
          · rw [held, Line.entry?, List.find?_map, Option.map_eq_some_iff] at he
            obtain ⟨e0, he0, rfl⟩ := he
            have found : (s.line l).entry? c.ship = some e0 := by
              rw [← he0, Line.entry?]
              refine congrArg (fun p => List.find? p _) (funext fun e => ?_)
              rw [Function.comp_apply, (e.decreased_kept before).1]
            exact absurd ((e0.decreased_kept before).2.symm.trans empty) (full early e0 found)
          · refine later empty ?_
            cases hs : c.state <;> simp [hs] at early parked ⊢
        · exact stays empty
  have rest := ((PartWork.removeAllWithdrawn (s.decreaseHolds l before)).trans (.deferralStep (l := l) _)).trans
    (.openPending (l := l) _)
  rw [State.perBoundary, quiet, rest.circuit, rest.calls, held]
  exact ⟨rfl, rfl⟩

theorem State.worked_undisturbed (h : (s.settled l).undisturbed l) :
    ((s.worked l).line l).circuit = ((s.settled l).line l).circuit
      ∧ ((s.worked l).line l).callList
        = ((s.settled l).line l).callList.map (Entry.decreased (s.line l).callList) :=
  State.perBoundary_undisturbed h _ _ _

/-- A line without a circuit that stops keying keeps its call list (R21). -/
theorem State.stopKeying_idle (h : (s.line l).circuit = none) (m : Mode) :
    ((s.stopKeying l m).line l).circuit = none ∧ ((s.stopKeying l m).line l).callList = (s.line l).callList := by
  obtain ⟨-, -, circuit, calls, -⟩ := s.noticeDropped_fields l
  rw [State.stopKeying_workStopped, State.line_modLine_self, State.workStopped_eq,
    State.stopCircuit_none (circuit.trans h)]
  exact ⟨circuit.trans h, calls⟩

/-- A line has no circuit, and its call list is `calls`. -/
def Line.idleWith (x : Line) (calls : List Entry) : Prop := x.circuit = none ∧ x.callList = calls

section modeStep

variable {calls : List Entry}

theorem State.silenceCheck_idleWith (h : (s.line l).idleWith calls) : ((s.silenceCheck l).line l).idleWith calls := by
  have stop : ((s.stopKeying l .silent).line l).idleWith calls := by
    obtain ⟨circuit, calls'⟩ := State.stopKeying_idle h.1 .silent
    exact ⟨circuit, calls'.trans h.2⟩
  unfold State.silenceCheck
  split
  case h_5 =>
    split
    · exact h
    · rw [State.line_modLine_self]
      exact h
  case h_6 | h_7 => exact h
  all_goals exact iteInduction (motive := fun v : State => (v.line l).idleWith calls) (fun _ => stop) fun _ => h

theorem State.actOrder_idleWith (h : (s.line l).idleWith calls) (order : LineOrder) :
    ((s.actOrder l order).1.line l).idleWith calls := by
  have stop : ((s.stopKeying l .stopped).line l).idleWith calls := by
    obtain ⟨circuit, calls'⟩ := State.stopKeying_idle h.1 .stopped
    exact ⟨circuit, calls'.trans h.2⟩
  have mode : ∀ f : Line → Line, (∀ x, (f x).circuit = x.circuit ∧ (f x).callList = x.callList) →
      ((s.modLine l f).line l).idleWith calls := fun f hf => by
    rw [State.line_modLine_self]
    exact ⟨(hf _).1.trans h.1, (hf _).2.trans h.2⟩
  cases order <;> simp only [State.actOrder] <;> split
  case h_6 | h_7 => exact h
  case h_1 | h_2 | h_3 | h_4 | h_5 => exact stop
  case start.isFalse | patternOn.isFalse | patternOff.isFalse => exact h
  all_goals exact mode _ fun _ => ⟨rfl, rfl⟩

theorem State.modeStep_idleWith (h : (s.line l).idleWith calls) : ((s.modeStep l).1.line l).idleWith calls := by
  have order : ∀ v : State, (v.line l).idleWith calls → ((v.orderStep l).1.line l).idleWith calls := fun v hv => by
    unfold State.orderStep
    split
    · exact hv
    · refine State.actOrder_idleWith ?_ _
      rw [State.line_modLine_self]
      exact hv
  have checked := order _ (State.silenceCheck_idleWith h)
  show ((State.keyingCheck ((s.silenceCheck l).orderStep l).1 l).line l).idleWith calls
  unfold State.keyingCheck
  split
  · rw [State.line_modLine_self]
    exact checked
  · exact checked

end modeStep

/-- A line that has no circuit after its per-boundary work keeps its call list to the end of the boundary, but for
recall marks. -/
theorem State.boundary_calls (h : ((s.worked l).line l).circuit = none) :
    ((s.boundary l).line l).callList.map Entry.unrecalled
      = ((s.worked l).line l).callList.map Entry.unrecalled := by
  obtain ⟨-, calls⟩ := State.modeStep_idleWith (s := s.worked l) (l := l) ⟨h, rfl⟩
  rw [State.boundary_line, Line.handed_callList, State.chosen_eq, (Choosing.choice _).calls, State.stepped_eq, calls]

end Sys2Proof.Machine

namespace Sys2Proof.Machine

variable {l : LineId} {s t u v : State} {c : Circuit}

/-! ## Calls and the search over a boundary -/

theorem Line.ended_of_cycle {x : Line} {r : CycleRecord} {cycle : Cycle} (hr : x.cycle = some r)
    (h : r.cycle = cycle) : x.ended = some cycle := by
  rw [Line.ended, hr, Option.map_some, h]

/-- A CALL answered (R31). -/
theorem State.settled_answered {ship : Nat} (hc : (s.line l).circuit = some c)
    (he : (s.line l).ended = some (.call ship)) (state : c.state = .calling)
    (answer : (s.line l).outcome = some .callAnswer) :
    s.settled l = (s.heeding l).setCircuit l (some { c with state := .aligning, trialOffset := 0 }) := by
  rw [State.settled_eq hc he nofun nofun]
  have settle : (s.heeding l).settleCircuit l c (.call ship) ((s.line l).heard (.call ship))
      = (s.heeding l).settleCall l c ((s.line l).heard (.call ship)) := by
    simp only [State.settleCircuit, state]
  rw [settle, State.settleCall, if_pos (((s.line l).heard_call ship).mpr answer)]

/-- An ACTIVE line whose circuit searches hands an ALIGN, and leaves the circuit as it is (R33, R107). -/
theorem State.chooseCycle_align (hc : (s.line l).circuit = some c) (state : c.state = .aligning) :
    (s.chooseCycle l).2 = .align ∧ ((s.chooseCycle l).1.line l).circuit = some c
      ∧ ((s.chooseCycle l).1.line l).mode = (s.line l).mode := by
  obtain ⟨f, tests⟩ := s.endTests_eq l
  have tested : (s.endTests l).line l = { s.line l with arbiter := f (s.line l).arbiter } := by
    rw [tests]
    exact State.line_modLine_self ..
  have serve : (s.endTests l).serveOperation l = ((s.endTests l).countTurn l, .align) := by
    have circuit : ((s.endTests l).line l).circuit = some c := by rw [tested]; exact hc
    rw [State.serveOperation, circuit, Option.filter_some, if_pos (by rw [state]; rfl)]
    simp only [countedTurn, State.handOperation, state]
  unfold State.chooseCycle
  rw [serve]
  dsimp only
  rw [if_neg nofun, State.line_modLine_self, State.countTurn, State.modArbiter, State.line_modLine_self, tested]
  exact ⟨rfl, hc, rfl⟩

/-- An ACTIVE line without an order, its band not silenced: the mode step leaves it as its work has left it. -/
theorem State.stepped_active (mode : (s.line l).mode = .active) (silenced : s.silencedLine l = false)
    (held : (s.line l).held = none) : s.stepped l = s.worked l := by
  rw [State.stepped_open held silenced (by rw [mode]; nofun),
    State.keyingCheck_other (.inl (by rw [(s.worked_kept l).1, mode]; nofun))]

/-- A line without a circuit settles none of its own: its call list stands (R6). -/
theorem State.settled_idle (h : (s.line l).circuit = none) :
    ((s.settled l).line l).circuit = none ∧ ((s.settled l).line l).callList = (s.line l).callList := by
  have base : ((s.heeding l).line l).circuit = none ∧ ((s.heeding l).line l).callList = (s.line l).callList := by
    rw [State.heeding_line]
    exact ⟨h, rfl⟩
  have after : PartWork l (s.heeding l) (s.settled l) := by
    unfold State.settled State.settle
    dsimp only
    split
    · exact .refl l _
    · split
      · next i hi => exact .completeSending _ (State.bulletinOnAir_spec hi).1
      · exact .refl l _
    · exact .endNotice _
    · rw [show ((s.modLine l fun x => { x with outcome := none }).line l).circuit = none from base.1]
      exact .refl l _
  exact ⟨after.circuit.trans base.1, after.calls.trans base.2⟩

theorem State.undisturbed_of_none (h : (s.line l).circuit = none) : s.undisturbed l := fun c hc => by
  rw [h] at hc
  cases hc

theorem State.lineShips_nodup (h : s.shipsOnce) (l : LineId) : ((s.line l).callList.map (·.ship)).Nodup :=
  (List.nodup_flatMap.mp (State.shipsOnce_iff.mp h).1).1 l (by fin_cases l <;> simp [lineIds])

/-- An entry that the settling left as it was waits one boundary less (R27). -/
theorem Entry.decreased_of_mem {before : List Entry} (nodup : (before.map (·.ship)).Nodup) {e : Entry}
    (he : e ∈ before) : e.decreased before = { e with retryHold := e.retryHold - 1 } := by
  have found : before.find? (fun b => b.ship = e.ship) = some e := by
    cases hf : before.find? (fun b => b.ship = e.ship) with
    | none => exact absurd (List.find?_eq_none.mp hf e he) (by simp)
    | some b =>
      have same : b.ship = e.ship := by simpa using List.find?_some hf
      rw [List.inj_on_of_nodup_map nodup (List.mem_of_find?_eq_some hf) he same]
  rw [Entry.decreased, found]
  exact if_pos (by simp)

/-- An entry whose retry-hold the settling set keeps it (R27). -/
theorem Entry.decreased_of_set {before : List Entry} {e b : Entry}
    (found : before.find? (fun b => b.ship = e.ship) = some b) (set : b.retryHold ≠ e.retryHold) :
    e.decreased before = e := by
  rw [Entry.decreased, found]
  exact if_neg (by simpa using set)

/-- The call of a line fails: its circuit is gone, and the failed attempt stands in its call list (R29, R31). -/
theorem State.callFailed_line (s : State) (l : LineId) :
    ((((s.heeding l).setCircuit l none).modCounters l fun n => { n with callsFailed := bump n.callsFailed }).line l)
      = { s.line l with
          outcome := none, circuit := none
          counters := { (s.line l).counters with callsFailed := bump (s.line l).counters.callsFailed } } := by
  rw [State.modCounters, State.line_modLine_self, State.heeding_setCircuit]

/-- A boundary of a line without a circuit decreases every retry-hold, and changes nothing else of its entries but
recall marks (R27). -/
theorem State.boundary_holds (ships : s.shipsOnce) (h : (s.line l).circuit = none) :
    ((s.boundary l).line l).callList.map Entry.unrecalled
      = (s.line l).callList.map fun e => { e with retryHold := e.retryHold - 1, recalled := false } := by
  obtain ⟨circuit, calls⟩ := State.settled_idle h
  have worked := (State.worked_undisturbed (State.undisturbed_of_none circuit)).2
  rw [State.boundary_calls (State.worked_circuit h), worked, calls, List.map_map]
  refine List.map_congr_left fun e he => ?_
  rw [Function.comp_apply, Entry.decreased_of_mem (State.lineShips_nodup ships l) he]
  rfl

/-- A call that fails below the third attempt leaves its entry with 60 boundaries to wait (R27, R29). -/
theorem State.boundary_holdSet {ship : Nat} {e : Entry} (hc : (s.line l).circuit = some c)
    (ended : (s.line l).ended = some (.call ship)) (state : c.state = .calling) (ten : 10 ≤ c.callCycles)
    (unanswered : (s.line l).outcome ≠ some .callAnswer) (he : (s.line l).entry? c.ship = some e)
    (few : e.attempts + 1 < 3) (full : e.messages ≠ []) (hold : e.retryHold < 60) :
    ∃ e' ∈ ((s.boundary l).line l).callList,
      e'.ship = c.ship ∧ e'.retryHold = 60 ∧ e'.attempts = e.attempts + 1 := by
  obtain ⟨waiting, hw⟩ : ∃ w : Entry,
      w = { e with attempts := e.attempts + 1, retryHold := 60, lastFailure := some .noAnswer } := ⟨_, rfl⟩
  have ship' : waiting.ship = c.ship := by rw [hw]; exact (Line.entry_ship he : e.ship = c.ship)
  have failed := (State.settled_call hc ended state rfl unanswered).2 ten
  have line := State.callFailed_line s l
  generalize ((s.heeding l).setCircuit l none).modCounters l _ = u at failed line
  have entry : (u.line l).entry? c.ship = some e := by rw [line]; exact he
  have settled : (s.settled l).line l = { u.line l with callList := callsAttempted (u.line l).callList e .noAnswer } := by
    rw [failed, State.countAttempt_line entry]
  have none' : ((s.settled l).line l).circuit = none := by rw [settled, line]
  obtain ⟨circuit, calls⟩ := State.worked_undisturbed (State.undisturbed_of_none none')
  have stands : waiting ∈ ((s.settled l).line l).callList := by
    rw [settled, callsAttempted, if_neg fun h => h.elim (by omega) full, hw]
    exact List.mem_append_right _ (List.mem_singleton_self _)
  have kept : waiting.decreased (s.line l).callList = waiting := by
    refine Entry.decreased_of_set (b := e) ?_ (by rw [hw]; exact Nat.ne_of_lt hold)
    rw [ship']
    exact he
  have waits : waiting ∈ ((s.worked l).line l).callList := by
    rw [calls]
    exact List.mem_map.mpr ⟨waiting, stands, kept⟩
  have mem := List.mem_map_of_mem (f := Entry.unrecalled) waits
  rw [← State.boundary_calls (circuit.trans none')] at mem
  obtain ⟨e', he', same⟩ := List.mem_map.mp mem
  simp only [Entry.unrecalled, Entry.mk.injEq] at same
  obtain ⟨sameShip, -, -, attempts, hold', -⟩ := same
  refine ⟨e', he', sameShip.trans ship', hold'.trans ?_, attempts.trans ?_⟩
  · rw [hw]
  · rw [hw]

/-- The boundary at which a call is answered hands the first ALIGN (R31, R33). -/
theorem State.boundary_search {ship : Nat} (hc : (s.line l).circuit = some c)
    (ended : (s.line l).ended = some (.call ship)) (state : c.state = .calling)
    (answer : (s.line l).outcome = some .callAnswer) (mode : (s.line l).mode = .active)
    (silenced : s.silencedLine l = false) (held : (s.line l).held = none)
    (full : ∀ e, (s.line l).entry? c.ship = some e → e.messages ≠ []) :
    ((s.boundary l).line l).mode = .active
      ∧ ((s.boundary l).line l).circuit = some { c with state := .aligning, trialOffset := 0 }
      ∧ (s.recordHanded l).cycle = .align ∧ (s.recordHanded l).windowOffset = 0 := by
  obtain ⟨search, hs⟩ : ∃ d : Circuit, d = { c with state := .aligning, trialOffset := 0 } := ⟨_, rfl⟩
  have settled := State.settled_answered hc ended state answer
  rw [← hs] at settled ⊢
  have searching : search.state = .aligning := by rw [hs]
  have line : (s.settled l).line l = { s.line l with outcome := none, circuit := some search } := by
    rw [settled, State.heeding_setCircuit]
  have undisturbed : (s.settled l).undisturbed l := fun d hd => by
    rw [line] at hd
    cases hd
    refine ⟨by rw [searching]; nofun, fun _ e he => full e ?_⟩
    rw [line, show search.ship = c.ship by rw [hs]] at he
    exact he
  have circuit : ((s.worked l).line l).circuit = some search := by
    rw [(State.worked_undisturbed undisturbed).1, line]
  have active : ((s.worked l).line l).mode = .active := (s.worked_kept l).1.trans mode
  have chosen : s.chosen l = (s.worked l).chooseCycle l := by
    rw [State.chosen_eq, State.stepped_active mode silenced held, ((s.worked l).choice_of_mode l).2.2.2.2 active]
  obtain ⟨cycle, circuit', mode'⟩ := State.chooseCycle_align circuit searching
  rw [State.boundary_line, Line.handed_mode, Line.handed_circuit, State.recordHanded, chosen]
  dsimp only
  refine ⟨mode'.trans active, circuit', cycle, ?_⟩
  rw [cycle, Line.offsetFor, circuit', hs]
  rfl

/-- The second CLEAR of a circuit, as its line shows it (R45, R49). -/
theorem State.settled_cleared (hc : (s.line l).circuit = some c) (clear : (s.line l).ended = some .clear)
    (state : c.state = .clearing) (second : 2 ≤ c.clearCycles) :
    ((s.settled l).line l).circuit = none
      ∧ (c.clearCause.reason = none → ((s.settled l).line l).counters = (s.line l).counters)
      ∧ (c.clearCause.reason ≠ none → ((s.settled l).line l).counters
        = { (s.line l).counters with callsFailed := bump (s.line l).counters.callsFailed })
      ∧ ∀ e, (s.line l).entry? c.ship = some e →
        ((s.settled l).line l).callList = callsAfterClear (s.line l).callList e c.clearCause.reason := by
  have line := (s.heeding l).completeClear_line l c
  rw [show ((s.heeding l).line l).entry? c.ship = (s.line l).entry? c.ship by rw [State.heeding_line]; rfl,
    State.heeding_line] at line
  rw [(State.settled_clear hc clear state rfl).2 second, line]
  exact ⟨rfl, fun cause => if_pos cause, fun cause => if_neg cause, fun e he => by rw [he]⟩

/-- Where an ordinary clear puts the entry of its ship (R45). -/
theorem callsCleared_ordinary (calls : List Entry) (e : Entry) :
    (e.messages = [] → callsCleared calls e false = calls.filter fun e' => e'.ship ≠ e.ship)
      ∧ (e.messages ≠ [] → e.recalled = true → callsCleared calls e false
        = { e with retryHold := 0, recalled := false } :: calls.filter fun e' => e'.ship ≠ e.ship)
      ∧ (e.messages ≠ [] → e.recalled = false → callsCleared calls e false
        = (calls.filter fun e' => e'.ship ≠ e.ship) ++ [e]) := by
  rw [callsCleared]
  refine ⟨fun empty => if_pos empty, fun full recalled => ?_, fun full recalled => ?_⟩
  · rw [if_neg full, if_pos recalled]
  · rw [if_neg full, recalled]
    rfl

/-- Settles O16: the settling stage by the operation and its outcome, the emptied check by the circuit's state, and
the boundaries stage by stage, the later ones leaving the entries but for recall marks. -/
theorem callAnswerBeginsSearch : Obligations.CallAnswerBeginsSearch := by
  unfold Obligations.CallAnswerBeginsSearch
  refine ⟨fun l s c r ship hp mode silenced held hc state hr cycle answer full => ?_, fun l s c ended hc he => ?_,
    fun l s c e hc he => ?_, fun l s hp ships hc => ?_,
    fun l s c r ship e hp hc state ten hr cycle unanswered he few full hold => ?_⟩
  · obtain ⟨mode', circuit, align, offset⟩ :=
      State.boundary_search hc (Line.ended_of_cycle hr cycle) state answer mode silenced held full
    exact ⟨_, _, exec_boundary s l hp, mode', circuit, s.boundary_cycle l, align, offset⟩
  · dsimp only
    refine ⟨fun ship state call unanswered => ?_, fun state align => ?_, fun state ident => ?_, fun state clear => ?_⟩
    · obtain ⟨goesOn, fails⟩ := State.settled_call hc he state call unanswered
      refine ⟨fun few => ?_, fun ten => ?_⟩
      · rw [goesOn few, State.heeding_line]
        exact ⟨hc, rfl, rfl⟩
      · have line := State.callFailed_line s l
        rw [fails ten]
        generalize ((s.heeding l).setCircuit l none).modCounters l _ = v at line ⊢
        obtain ⟨calls, attempted⟩ := v.countAttempt_calls l c.ship .noAnswer
        have attempt := v.countAttempt_failed l c.ship .noAnswer
        rw [line] at attempt
        rw [attempted, line]
        exact ⟨rfl, attempt, rfl⟩
    · obtain ⟨calls, edge, more, last⟩ := State.settled_align hc he state align
      refine ⟨calls, fun heard => ?_, fun unheard below => ?_, fun unheard above => ?_⟩
      · rw [edge heard, State.heeding_setCircuit]
      · rw [more unheard below, State.heeding_setCircuit]
      · rw [last unheard above, State.heeding_setCircuit]
        rfl
    · obtain ⟨calls, answered, unanswered⟩ := State.settled_ident hc he state ident
      refine ⟨calls, fun digits heard => ⟨fun same => ?_, fun other => ?_⟩, fun unheard => ⟨fun more => ?_, fun last => ?_⟩⟩
      · rw [(answered digits heard).1 same, State.modCounters, State.line_modLine_self, State.heeding_setCircuit]
        exact ⟨rfl, rfl⟩
      · rw [(answered digits heard).2 other, State.heeding_setCircuit]
        rfl
      · rw [(unanswered unheard).1 more, State.heeding_line]
        exact hc
      · rw [(unanswered unheard).2 last, State.heeding_setCircuit]
        rfl
    · refine ⟨fun more => ?_, fun second => ?_⟩
      · rw [(State.settled_clear hc he state clear).1 more, State.heeding_line]
        exact ⟨hc, rfl⟩
      · have clear' : (s.line l).ended = some .clear := clear ▸ he
        obtain ⟨gone, ordinary, failed, calls⟩ := State.settled_cleared hc clear' state second
        refine ⟨gone, fun cause => ⟨ordinary (by rw [cause]; rfl), fun e found => ?_⟩, fun reason cause => ?_⟩
        · rw [calls e found, cause, ← Line.entry_ship found]
          exact callsCleared_ordinary _ e
        · have why : c.clearCause.reason = some reason := by
            rcases cause with h | h <;> obtain ⟨same, rfl⟩ := Prod.mk.inj h <;> rw [same] <;> rfl
          refine ⟨failed (by rw [why]; nofun), fun stays => ?_, fun e found recalled few full => ?_⟩
          · rw [(State.settled_clear hc he state clear).2 second]
            have attempt := State.completeClear_failed (s := s.heeding l) (l := l) why
            rw [State.heeding_line] at attempt
            exact attempt stays
          · rw [calls e found, why, callsAfterClear_kept few full, if_pos recalled, ← Line.entry_ship found]
  · obtain ⟨calling, early, later, stays⟩ := State.emptiedCheck_spec hc he
    refine ⟨fun empty => ⟨fun state => ?_, fun state => ?_, later empty⟩, stays⟩
    · rw [calling empty state, State.freeEntry, State.line_modLine_self, State.setCircuit, State.line_modLine_self]
      exact ⟨rfl, rfl⟩
    · rw [early empty state, State.setCircuit, State.line_modLine_self]
      exact ⟨rfl, rfl⟩
  · exact ⟨_, exec_boundary s l hp, State.boundary_holds ships hc⟩
  · exact ⟨_, exec_boundary s l hp,
      State.boundary_holdSet hc (Line.ended_of_cycle hr cycle) state ten unanswered he few full hold⟩

end Sys2Proof.Machine

namespace Sys2Proof.Machine

variable {l : LineId} {s t u v : State} {c : Circuit}

/-! ## Messages finished, and circuits lost -/

/-- A message finished: its report waits, and its work is over (R149). -/
theorem State.finishTelex_over {i : Slot} {r : Record} (hr : s.record i = some r) (item : ReportItem) :
    (⟨i, item⟩ : Report) ∈ (s.finishTelex i item).reports
      ∧ ∃ r', (s.finishTelex i item).record i = some r' ∧ r'.spent :=
  ⟨List.mem_append_right _ (List.mem_singleton_self _), _,
    (State.record_congr (State.leaveEntry_frame (s.endWork i) i).1 i).trans (State.endWork_record hr), rfl, rfl, rfl⟩

/-- A telex message of a line finished: its pages are returned, and its entry is without it (R149, R28). -/
theorem State.finishTelex_home {i : Slot} {r : Record} {z : Telex} (hr : s.record i = some r) (hb : r.body = .telex z)
    (hl : z.line = some l) (item : ReportItem) :
    (s.finishTelex i item).freePages = s.freePages ++ r.pageList ++ r.reserved
      ∧ (s.finishTelex i item).line l = { s.line l with
        callList := if (s.line l).worksFor z.ship then callsWithout (s.line l).callList z.ship i
          else callsKept (callsWithout (s.line l).callList z.ship i) z.ship } := by
  have ended := State.endWork_record hr
  have line : (s.endWork i).line l = s.line l := State.line_congr (s.endWork_lines i) l
  have pages : (s.endWork i).freePages = s.freePages ++ r.pageList ++ r.reserved := by
    rw [State.endWork_freePages, State.pagesOf, hr, List.append_assoc]
  have left := State.leaveEntry_eq ended hb hl
  rw [line] at left
  refine ⟨?_, ?_⟩
  · show ((s.endWork i).leaveEntry i).freePages = _
    rw [left]
    exact pages
  · show ((s.endWork i).leaveEntry i).line l = _
    rw [left, State.line_modLine_self, line]

/-- Where an empty entry of a ship is freed first, a failed attempt of the ship finds none (R28, R29). -/
theorem attemptFailed_of_kept {calls : List Entry} {ship : Nat} {reason : Reason}
    (nodup : (calls.map (·.ship)).Nodup) (h : attemptFailed (callsKept calls ship) u l ship reason) :
    attemptFailed calls u l ship reason := by
  have full : (∀ e ∈ calls, e.ship = ship → e.messages ≠ []) → callsKept calls ship = calls := fun full => by
    rw [callsKept, List.filter_eq_self]
    intro e he
    by_cases hs : e.ship = ship
    · simp [hs, full e he hs]
    · simp [hs]
  cases found : calls.find? (fun e => e.ship = ship) with
  | none =>
    rwa [full fun e he hs => absurd hs (by simpa using List.find?_eq_none.mp found e he)] at h
  | some e =>
    have mem := List.mem_of_find?_eq_some found
    have hs : e.ship = ship := by simpa using List.find?_some found
    have only : ∀ e' ∈ calls, e'.ship = ship → e' = e := fun e' he' hs' =>
      List.inj_on_of_nodup_map nodup he' mem (hs'.trans hs.symm)
    by_cases empty : e.messages = []
    · have gone : callsKept calls ship = calls.filter fun e' => e'.ship ≠ ship := by
        refine List.filter_congr fun e' he' => ?_
        by_cases hs' : e'.ship = ship
        · simp [only e' he' hs', empty]
        · simp [hs']
      have calls' := h.1 (by rw [gone, filter_ship_filter])
      rw [gone] at calls'
      refine ⟨fun none' => absurd (none'.symm.trans found) nofun, fun e' he' => ?_⟩
      obtain rfl := Option.some.inj (found.symm.trans he')
      exact ⟨fun _ => ⟨calls', by rw [empty]; nofun⟩, fun _ _ => calls', fun _ full => absurd empty full⟩
    · rwa [full fun e' he' hs' => by rw [only e' he' hs']; exact empty] at h

/-- The loss of a circuit, read from another state with the same messages, call list and window. -/
theorem circuitLost_congr {d : Circuit} (h : circuitLost t u l d) (records : t.records = s.records)
    (calls : (t.line l).callList = (s.line l).callList) (window : (t.line l).window = (s.line l).window)
    (ship : d.ship = c.ship) (current : d.current = c.current) : circuitLost s u l c := by
  have record : ∀ i, t.record i = s.record i := State.record_congr records
  simpa only [circuitLost, calls, window, ship, current, record] using h

/-- Of its line the release of a lost circuit's message touches the call list and the window alone (R43, R98). -/
theorem State.endCurrent_line (s : State) (l : LineId) (c : Circuit) :
    ∃ calls window, (s.endCurrent l c).line l = { s.line l with callList := calls, window := window } := by
  have released := CallsOnly.releaseCurrent s l c
  unfold State.endCurrent
  unfold State.releaseCurrent at released
  split
  · exact ⟨_, _, rfl⟩
  · next i hi =>
    rw [hi] at released
    obtain ⟨calls, line⟩ := released
    exact ⟨calls, _, by rw [State.endOfMessage, State.modWindow, State.line_modLine_self, line]⟩

section loss

variable (hc : (s.line l).circuit = some c)
include hc

/-- The line of a lost circuit: the circuit gone, and the loss counted (R43). -/
theorem State.loseCircuit_line (attempt : Bool) :
    ((s.loseCircuit l attempt).line l).circuit = none ∧ ((s.loseCircuit l attempt).line l).counters
      = { (s.line l).counters with circuitsLost := bump (s.line l).counters.circuitsLost } := by
  have line : ((s.setCircuit l none).modCounters l fun n => { n with circuitsLost := bump n.circuitsLost }).line l
      = { s.line l with
          circuit := none
          counters := { (s.line l).counters with circuitsLost := bump (s.line l).counters.circuitsLost } } := by
    rw [State.modCounters, State.line_modLine_self, State.setCircuit, State.line_modLine_self]
  unfold State.loseCircuit
  rw [hc]
  dsimp only
  generalize (s.setCircuit l none).modCounters l _ = v at line ⊢
  obtain ⟨calls, window, ended⟩ := v.endCurrent_line l c
  split
  · obtain ⟨calls', attempted⟩ := (v.endCurrent l c).countAttempt_calls l c.ship .lost
    rw [attempted, ended, line]
    exact ⟨rfl, rfl⟩
  · rw [ended, line]
    exact ⟨rfl, rfl⟩

/-- What the loss of a circuit leaves (R43, R48, R54, R29). -/
theorem State.loseCircuit_lost : circuitLost s (s.loseCircuit l true) l c := by
  have lost : s.loseCircuit l true = (((s.setCircuit l none).modCounters l fun n =>
      { n with circuitsLost := bump n.circuitsLost }).endCurrent l c).countAttempt l c.ship .lost := by
    simp only [State.loseCircuit, hc, if_true]
  have line : ((s.setCircuit l none).modCounters l fun n => { n with circuitsLost := bump n.circuitsLost }).line l
      = { s.line l with
          circuit := none
          counters := { (s.line l).counters with circuitsLost := bump (s.line l).counters.circuitsLost } } := by
    rw [State.modCounters, State.line_modLine_self, State.setCircuit, State.line_modLine_self]
  have record : ∀ i, ((s.setCircuit l none).modCounters l fun n =>
      { n with circuitsLost := bump n.circuitsLost }).record i = s.record i := fun _ => rfl
  refine ⟨(State.loseCircuit_line hc true).1, ?_⟩
  rw [lost]
  generalize (s.setCircuit l none).modCounters l _ = v at line record ⊢
  have attempt : ∀ w : State, attemptFailed (w.line l).callList (w.countAttempt l c.ship .lost) l c.ship .lost :=
    fun w => w.countAttempt_failed l c.ship .lost
  have window : ∀ w : State, ((w.countAttempt l c.ship .lost).line l).window = (w.line l).window := fun w => by
    obtain ⟨calls, attempted⟩ := w.countAttempt_calls l c.ship .lost
    rw [attempted]
  refine ⟨fun none' => ?_, fun i r hi hr air => ?_⟩
  · have same : v.endCurrent l c = v := by rw [State.endCurrent, none']
    have failed := attempt v
    rw [same, window, line]
    rw [line] at failed
    exact ⟨rfl, failed⟩
  have held : v.record i = some r := (record i).trans hr
  have onAir : v.isOnAir i = true := by rw [State.isOnAir, held]; simpa using air
  have marked : v.isMarked i = r.withdrawMark := by rw [State.isMarked, held]; rfl
  have ended : v.endCurrent l c = (v.releaseCurrent c).endOfMessage l i := by
    simp only [State.endCurrent, State.releaseCurrent, hi]
  have released : v.releaseCurrent c = if r.withdrawMark then v.finishTelex i (.withdrawn true)
      else v.modRecord i fun r => { r with state := .ready } := by
    simp only [State.releaseCurrent, hi, State.releaseMessage, onAir, if_true, marked]
  have told : ((v.releaseCurrent c).endOfMessage l i).line l = { (v.releaseCurrent c).line l with
      window := ((v.releaseCurrent c).line l).window.afterEnd i } := State.line_modLine_self ..
  have calls : (((v.releaseCurrent c).endOfMessage l i).line l).callList = ((v.releaseCurrent c).line l).callList := by
    rw [told]
  have failed := attempt ((v.releaseCurrent c).endOfMessage l i)
  rw [calls] at failed
  rw [ended]
  refine ⟨?_, fun unmarked => ?_, fun mark => ?_⟩
  · obtain ⟨calls', same⟩ := CallsOnly.releaseCurrent v l c
    rw [window, told, same, line]
  · rw [if_neg (by rw [unmarked]; nofun)] at released
    rw [released] at failed calls ⊢
    have still : ((v.modRecord i fun r => { r with state := .ready }).line l).callList = (s.line l).callList := by
      show (v.line l).callList = _
      rw [line]
    rw [still] at failed calls
    refine ⟨failed, fun few => ?_⟩
    rw [State.record_congr (State.countAttempt_records fun e he => few e (calls ▸ he))]
    show (v.modRecord i _).record i = _
    rw [State.record_modRecord_self, held]
    rfl
  · rw [if_pos mark] at released
    rw [released] at failed ⊢
    obtain ⟨waits, r', hr', spent⟩ := State.finishTelex_over held (.withdrawn true)
    obtain ⟨kept, records⟩ := ((v.finishTelex i (.withdrawn true)).endOfMessage l i).countAttempt_kept l c.ship .lost
    refine ⟨kept _ waits, records i r' hr' spent, fun x hb hl hs nodup => ?_⟩
    obtain ⟨-, home⟩ := State.finishTelex_home held hb hl (.withdrawn true)
    have idle : (v.line l).worksFor x.ship = false := by rw [line]; rfl
    have left : ((v.finishTelex i (.withdrawn true)).line l).callList
        = callsKept (callsWithout (s.line l).callList c.ship i) c.ship := by
      rw [home, idle, hs, line]
      rfl
    rw [left] at failed
    refine attemptFailed_of_kept ?_ failed
    have ships : (callsWithout (s.line l).callList c.ship i).map (·.ship) = (s.line l).callList.map (·.ship) := by
      rw [callsWithout, List.map_map]
      refine List.map_congr_left fun e _ => ?_
      rw [Function.comp_apply]
      split <;> rfl
    rw [ships]
    exact nodup

end loss

end Sys2Proof.Machine

namespace Sys2Proof.Machine

variable {l : LineId} {s t u v : State} {c : Circuit}

/-! ## A BLOCK, an IDLEBLOCK and a rephase settled -/

theorem State.endOfMessage_line (s : State) (l : LineId) (i : Slot) :
    (s.endOfMessage l i).line l = { s.line l with window := (s.line l).window.afterEnd i } :=
  State.line_modLine_self ..

theorem Line.worksFor_circuit {x : Line} (h : x.circuit = some c) : x.worksFor c.ship = true := by
  rw [Line.worksFor, h]
  simp

/-- What the end of a circuit's current message leaves: its report, its record's work over, its pages returned, and
of the line the circuit, the entries and the window changed (R39, R46, R98). -/
structure MessageEnded (l : LineId) (s u : State) (i : Slot) (r : Record) (item : ReportItem) : Prop where
  report : (⟨i, item⟩ : Report) ∈ u.reports
  record : ∃ r', u.record i = some r' ∧ r'.spent
  pages : u.freePages = s.freePages ++ r.pageList ++ r.reserved
  window : (u.line l).window = (s.line l).window.afterEnd i
  counters : (u.line l).counters = (s.line l).counters

/-- The clause of the statement about an ended message's record. -/
theorem Record.spent_fields {i : Slot} (h : ∃ r', u.record i = some r' ∧ r'.spent) :
    (u.record i).map (fun r' => (r'.state, r'.pageList, r'.reserved)) = some (.reporting, [], []) := by
  obtain ⟨r', hr', state, pages, reserved⟩ := h
  rw [hr', Option.map_some, state, pages, reserved]

/-- The card as a message completes: out of its entry, whose attempts are 0, its end made known (R39). -/
def State.messageDone (s : State) (l : LineId) (c : Circuit) (i : Slot) : State :=
  (((s.finishTelex i .delivered).setCircuit l (some { c with current := none })).modEntry l c.ship
    fun e => { e with attempts := 0 }).endOfMessage l i

section block

variable {i : Slot} {r : Record} {z : Telex} (hc : (s.line l).circuit = some c)
include hc

/-- The current message of a circuit finished, its line as the next circuit record is set (R39, R46). -/
theorem State.finishCurrent_line (hr : s.record i = some r) (hb : r.body = .telex z) (hl : z.line = some l)
    (hs : z.ship = c.ship) (item : ReportItem) (c' : Circuit) :
    ((s.finishTelex i item).setCircuit l (some c')).line l
      = { s.line l with circuit := some c', callList := callsWithout (s.line l).callList c.ship i } := by
  obtain ⟨-, line⟩ := State.finishTelex_home hr hb hl item
  rw [State.setCircuit, State.line_modLine_self, line, hs, if_pos (Line.worksFor_circuit hc)]

omit hc in
/-- A message that completes, and the clear for clear-after (R39). -/
theorem State.deliver_eq (clearAfter : Bool) : s.deliver l c i clearAfter
    = if clearAfter && (((s.messageDone l c i).line l).entry? c.ship).all (fun e => e.messages.isEmpty) then
        (s.messageDone l c i).setCircuit l (some ({ c with current := none }.toClearing .ordinary))
      else s.messageDone l c i := rfl

/-- A message that completes, as its line shows it before a clear for clear-after (R39). -/
theorem State.messageDone_spec (hr : s.record i = some r) (hb : r.body = .telex z) (hl : z.line = some l)
    (hs : z.ship = c.ship) : MessageEnded l s (s.messageDone l c i) i r .delivered
      ∧ ((s.messageDone l c i).line l).circuit = some { c with current := none }
      ∧ ((s.messageDone l c i).line l).callList = (callsWithout (s.line l).callList c.ship i).map fun e =>
          if e.ship = c.ship then { e with attempts := 0 } else e := by
  have line := State.finishCurrent_line hc hr hb hl hs .delivered { c with current := none }
  obtain ⟨report, record⟩ := State.finishTelex_over hr .delivered
  obtain ⟨pages, -⟩ := State.finishTelex_home hr hb hl .delivered
  unfold State.messageDone
  generalize hu : (s.finishTelex i .delivered).setCircuit l (some { c with current := none }) = u at line ⊢
  have done' : ((u.modEntry l c.ship fun e => { e with attempts := 0 }).endOfMessage l i).line l = { u.line l with
      callList := (u.line l).callList.map fun e => if e.ship = c.ship then { e with attempts := 0 } else e
      window := (u.line l).window.afterEnd i } := by
    rw [State.endOfMessage_line, State.modEntry, State.line_modLine_self]
  rw [line] at done'
  refine ⟨⟨?_, ?_, ?_, by rw [done'], by rw [done']⟩, by rw [done'], by rw [done']⟩
  · show _ ∈ u.reports
    subst hu
    exact report
  · show ∃ r', u.record i = some r' ∧ r'.spent
    subst hu
    exact record
  · show u.freePages = _
    subst hu
    exact pages

/-- A message that completes (R39). -/
theorem State.deliver_spec (hr : s.record i = some r) (hb : r.body = .telex z) (hl : z.line = some l)
    (hs : z.ship = c.ship) (clearAfter : Bool) :
    MessageEnded l s (s.deliver l c i clearAfter) i r .delivered
      ∧ ((s.deliver l c i clearAfter).line l).callList = (callsWithout (s.line l).callList c.ship i).map (fun e =>
          if e.ship = c.ship then { e with attempts := 0 } else e)
      ∧ (clearAfter = true → (∀ e, ((s.deliver l c i clearAfter).line l).entry? c.ship = some e → e.messages = []) →
        ((s.deliver l c i clearAfter).line l).circuit
          = some { c with current := none, state := .clearing, clearCycles := 0, clearCause := .ordinary })
      ∧ (clearAfter = false ∨ (∃ e, ((s.deliver l c i clearAfter).line l).entry? c.ship = some e ∧ e.messages ≠ []) →
        ((s.deliver l c i clearAfter).line l).circuit = some { c with current := none }) := by
  obtain ⟨ended, circuit, calls⟩ := State.messageDone_spec hc hr hb hl hs
  rw [State.deliver_eq]
  generalize s.messageDone l c i = w at ended circuit calls ⊢
  have cleared : ∀ d, (w.setCircuit l d).line l = { w.line l with circuit := d } := fun _ => State.line_modLine_self ..
  cases emptied : clearAfter && ((w.line l).entry? c.ship).all fun e => e.messages.isEmpty with
  | true =>
    obtain ⟨after, empty⟩ := Bool.and_eq_true _ _ |>.mp emptied
    rw [if_pos rfl, cleared]
    refine ⟨⟨ended.report, ended.record, ended.pages, ?_, ?_⟩, calls, fun _ _ => rfl, fun h => ?_⟩
    · rw [cleared]; exact ended.window
    · rw [cleared]; exact ended.counters
    · rcases h with h | ⟨e, he, full⟩
      · rw [h] at after; cases after
      · rw [show (w.line l).entry? c.ship = some e from he] at empty
        exact absurd (List.isEmpty_iff.mp empty) full
  | false =>
    rw [if_neg nofun]
    refine ⟨ended, calls, fun after empty => ?_, fun _ => circuit⟩
    rw [after, Bool.true_and] at emptied
    cases he : (w.line l).entry? c.ship with
    | none => rw [he] at emptied; cases emptied
    | some e =>
      rw [he, Option.all_some, List.isEmpty_iff.mpr (empty e he)] at emptied
      cases emptied

/-- The cut notice acknowledged (R46). -/
theorem State.cutGood_spec (hr : s.record i = some r) (hb : r.body = .telex z) (hl : z.line = some l)
    (hs : z.ship = c.ship) : MessageEnded l s (s.cutGood l c i) i r (.withdrawn true)
      ∧ ((s.cutGood l c i).line l).callList = callsWithout (s.line l).callList c.ship i
      ∧ ((s.cutGood l c i).line l).circuit = some { c.acknowledged with current := none, cut := false } := by
  obtain ⟨report, record⟩ := State.finishTelex_over hr (.withdrawn true)
  obtain ⟨pages, -⟩ := State.finishTelex_home hr hb hl (.withdrawn true)
  have line : (s.cutGood l c i).line l = { s.line l with
      circuit := some { c.acknowledged with current := none, cut := false }
      callList := callsWithout (s.line l).callList c.ship i, window := (s.line l).window.afterEnd i } := by
    rw [State.cutGood, State.endOfMessage_line, State.finishCurrent_line hc hr hb hl hs]
  rw [line]
  exact ⟨⟨report, record, pages, by rw [line], by rw [line]⟩, rfl, rfl⟩

omit hc in
/-- An answer that does not acknowledge a BLOCK or an IDLEBLOCK (R38, R41, R43). -/
theorem State.notAcknowledged_spec (isBlock : Bool) {d : Circuit} {n : LineCounters}
    (hd : d = { c with failRun := c.failRun + 1, k := if isBlock then min 7 (c.k + 1) else c.k })
    (hn : n = if isBlock then { (s.line l).counters with repeats := bump (s.line l).counters.repeats }
      else (s.line l).counters) :
    (d.failRun < 4 → (s.notAcknowledged l c isBlock).line l = { s.line l with circuit := some d, counters := n })
      ∧ (4 ≤ d.failRun → d.rephaseCount < 3 → (s.notAcknowledged l c isBlock).line l = { s.line l with
          circuit := some { d with state := .rephasing, rephaseCycles := 0 }, counters := n })
      ∧ (4 ≤ d.failRun → 3 ≤ d.rephaseCount → circuitLost s (s.notAcknowledged l c isBlock) l c
        ∧ ((s.notAcknowledged l c isBlock).line l).counters = { n with circuitsLost := bump n.circuitsLost }) := by
  have fails : s.notAcknowledged l c isBlock =
      (let s' := if isBlock then s.modCounters l fun n => { n with repeats := bump n.repeats } else s
      if d.failRun < 4 then s'.setCircuit l (some d)
      else if d.rephaseCount < 3 then s'.setCircuit l (some { d with state := .rephasing, rephaseCycles := 0 })
      else (s'.setCircuit l (some d)).loseCircuit l true) := by
    subst hd
    rfl
  have counted : (if isBlock then s.modCounters l fun n => { n with repeats := bump n.repeats } else s).line l
      = { s.line l with counters := n } := by
    subst hn
    cases isBlock with
    | false => rfl
    | true => rw [if_pos rfl, if_pos rfl]; exact State.line_modLine_self ..
  have records : (if isBlock then s.modCounters l fun n => { n with repeats := bump n.repeats } else s).records
      = s.records := by cases isBlock <;> rfl
  rw [fails]
  generalize (if isBlock then s.modCounters l fun n => { n with repeats := bump n.repeats } else s) = v
    at counted records
  dsimp only
  have set : ∀ e, (v.setCircuit l (some e)).line l = { s.line l with circuit := some e, counters := n } := fun e => by
    rw [State.setCircuit, State.line_modLine_self, counted]
  refine ⟨fun few => by rw [if_pos few, set], fun four few => by rw [if_neg (Nat.not_lt.mpr four), if_pos few, set],
    fun four three => ?_⟩
  rw [if_neg (Nat.not_lt.mpr four), if_neg (Nat.not_lt.mpr three)]
  have circuit : ((v.setCircuit l (some d)).line l).circuit = some d := State.setCircuit_circuit ..
  refine ⟨circuitLost_congr (State.loseCircuit_lost circuit) records (by rw [set]) (by rw [set]) (by rw [hd])
    (by rw [hd]), ?_⟩
  rw [(State.loseCircuit_line circuit true).2, set]

end block

end Sys2Proof.Machine

namespace Sys2Proof.Machine

variable {l : LineId} {s t u v : State} {c : Circuit}

/-! ## The settling stage of a LINKED or rephasing circuit -/

/-- The rounding of R122, held at 255. -/
theorem qualityUpdate_eq (q k : Nat) :
    qualityUpdate q k = if 255 < q - q / 16 + 4 * k then 255 else q - q / 16 + 4 * k := by
  unfold qualityUpdate
  split <;> omega

section settled

variable {ended : Cycle} (hc : (s.line l).circuit = some c) (he : (s.line l).ended = some ended)
include hc he

theorem State.settled_block {chars : List Byte} (state : c.state = .linked) (block : ended = .block chars) :
    ((s.line l).outcome = some .good → c.current = none →
        s.settled l = (s.heeding l).setCircuit l (some c.acknowledged))
      ∧ (∀ i, (s.line l).outcome = some .good → c.current = some i →
        (c.cut = true → s.settled l = (s.heeding l).cutGood l c i)
          ∧ (c.cut = false → s.settled l = (s.heeding l).blockGood l c i))
      ∧ ((s.line l).outcome ≠ some .good → s.settled l = (s.heeding l).notAcknowledged l c true) := by
  subst block
  have settle : s.settled l = (s.heeding l).settleBlock l c ((s.line l).heard (.block chars)) := by
    rw [State.settled_eq hc he nofun nofun]
    simp only [State.settleCircuit, state]
  rw [settle, State.settleBlock]
  refine ⟨fun good idle => ?_, fun i good current => ?_, fun bad => ?_⟩
  · rw [if_pos (((s.line l).heard_block chars).mpr good), idle]
  · rw [if_pos (((s.line l).heard_block chars).mpr good), current]
    exact ⟨fun cut => if_pos cut, fun uncut => if_neg (by rw [uncut]; nofun)⟩
  · rw [if_neg (mt ((s.line l).heard_block chars).mp bad)]

theorem State.settled_idleblock (state : c.state = .linked) (idle : ended = .idleblock) :
    ((s.line l).outcome = some .good →
        s.settled l = (s.heeding l).setCircuit l (some { c with failRun := 0, rephaseCount := 0 }))
      ∧ ((s.line l).outcome ≠ some .good → s.settled l = (s.heeding l).notAcknowledged l c false) := by
  subst idle
  have settle : s.settled l = (s.heeding l).settleIdle l c ((s.line l).heard .idleblock) := by
    rw [State.settled_eq hc he nofun nofun]
    simp only [State.settleCircuit, state]
  rw [settle, State.settleIdle]
  exact ⟨fun good => if_pos ((s.line l).heard_idleblock.mpr good),
    fun bad => if_neg (mt (s.line l).heard_idleblock.mp bad)⟩

theorem State.settled_rephase (state : c.state = .rephasing) (rephase : ended = .rephase) :
    s.settled l = (s.heeding l).setCircuit l (some c.afterRephase) := by
  subst rephase
  rw [State.settled_eq hc he nofun nofun]
  simp only [State.settleCircuit, state]

theorem State.settled_realign (state : c.state = .rephasing) (align : ended = .align) :
    ((s.line l).outcome = some .edgeIn → s.settled l = (s.heeding l).setCircuit l (some { c with
        state := .linked, echoOffset := c.trialOffset, rephaseCount := c.rephaseCount + 1, failRun := 0 }))
      ∧ ((s.line l).outcome ≠ some .edgeIn → c.trialOffset < 44 →
        s.settled l = (s.heeding l).setCircuit l (some { c with trialOffset := c.trialOffset + 4 }))
      ∧ ((s.line l).outcome ≠ some .edgeIn → 44 ≤ c.trialOffset →
        s.settled l = (s.heeding l).loseCircuit l true) := by
  subst align
  have settle : s.settled l = (s.heeding l).settleRephase l c ((s.line l).heard .align) := by
    rw [State.settled_eq hc he nofun nofun]
    simp only [State.settleCircuit, state]
  rw [settle, State.settleRephase]
  refine ⟨fun edge => if_pos ((s.line l).heard_align.mpr edge), fun none' more => ?_, fun none' last => ?_⟩
  · rw [if_neg (mt (s.line l).heard_align.mp none'), if_pos (show c.trialOffset < Config.lastOffset from more)]
  · rw [if_neg (mt (s.line l).heard_align.mp none'),
      if_neg (show ¬ c.trialOffset < Config.lastOffset from Nat.not_lt.mpr last)]

end settled

/-- A BLOCK of the current message acknowledged: progress, and delivery at the last (R37, R39). -/
theorem State.blockGood_progress {i : Slot} {r : Record} {z : Telex} (hr : s.record i = some r)
    (hb : r.body = .telex z) {ack : Nat}
    (hack : ack = z.ackCount + (c.block.map fun b => b.chars.length).getD 0) :
    ∃ v : State, v.line l = { s.line l with circuit := some c.acknowledged }
      ∧ v.record i = some { r with body := .telex { z with ackCount := ack } } ∧ v.freePages = s.freePages
      ∧ (ack ≠ r.n → s.blockGood l c i = v)
      ∧ (ack = r.n → s.blockGood l c i = v.deliver l c.acknowledged i z.clearAfter) := by
  have count : r.ackCount = z.ackCount := by simp [Record.ackCount, Record.telex?, hb]
  have clear : (r.telex?.map (·.clearAfter)).getD false = z.clearAfter := by simp [Record.telex?, hb]
  subst hack
  refine ⟨(s.modRecord i fun r => r.modTelex fun t => { t with
      ackCount := z.ackCount + (c.block.map fun b => b.chars.length).getD 0 }).setCircuit l (some c.acknowledged),
    State.line_modLine_self .., ?_, rfl, ?_⟩
  · show (s.modRecord i _).record i = _
    rw [State.record_modRecord_self, hr, Option.map_some, Record.modTelex, hb]
  · unfold State.blockGood
    rw [hr]
    dsimp only
    rw [count, clear]
    exact ⟨fun more => if_neg more, fun last => if_pos last⟩

/-- An answer that acknowledges nothing, as the settling stage leaves it (R38, R41, R43). -/
theorem State.settled_failed {isBlock : Bool} {d : Circuit} {n : LineCounters}
    (hu : s.settled l = (s.heeding l).notAcknowledged l c isBlock)
    (hd : d = { c with failRun := c.failRun + 1, k := if isBlock then min 7 (c.k + 1) else c.k })
    (hn : n = if isBlock then { (s.line l).counters with repeats := bump (s.line l).counters.repeats }
      else (s.line l).counters) :
    (d.failRun < 4 → ((s.settled l).line l).circuit = some d ∧ ((s.settled l).line l).counters = n
        ∧ ((s.settled l).line l).callList = (s.line l).callList)
      ∧ (4 ≤ d.failRun → d.rephaseCount < 3 →
        ((s.settled l).line l).circuit = some { d with state := .rephasing, rephaseCycles := 0 }
          ∧ ((s.settled l).line l).counters = n)
      ∧ (4 ≤ d.failRun → 3 ≤ d.rephaseCount → circuitLost s (s.settled l) l c
        ∧ ((s.settled l).line l).counters = { n with circuitsLost := bump n.circuitsLost }) := by
  have line := s.heeding_line l
  obtain ⟨goesOn, rephases, lost⟩ := (s.heeding l).notAcknowledged_spec (l := l) (c := c) isBlock hd
    (hn.trans (by rw [line]))
  rw [hu]
  refine ⟨fun few => ?_, fun four few => ?_, fun four three => ?_⟩
  · rw [goesOn few, line]
    exact ⟨rfl, rfl, rfl⟩
  · rw [rephases four few]
    exact ⟨rfl, rfl⟩
  · obtain ⟨gone, counters⟩ := lost four three
    exact ⟨circuitLost_congr gone rfl (by rw [line]) (by rw [line]) rfl rfl, counters⟩

/-! ## The q of a circuit over a boundary -/

/-- A circuit that is not CALLING, of a ship and with a q. -/
def State.serves (s : State) (l : LineId) (ship q : Nat) : Prop :=
  ∃ c, (s.line l).circuit = some c ∧ c.state ≠ .calling ∧ c.ship = ship ∧ c.q = q

section boundary

variable {ship q : Nat}

/-- A line that stops keying with a circuit keeps it PARKED, or has none (R21). -/
theorem State.stopKeying_serves (h : s.serves l ship q) (m : Mode) :
    (s.stopKeying l m).serves l ship q
      ∨ (((s.stopKeying l m).line l).circuit = none ∧ ((s.stopKeying l m).line l).mode = m) := by
  obtain ⟨c, hc, live, hs, hq⟩ := h
  have circuit : ((s.noticeDropped l).line l).circuit = some c := (s.noticeDropped_fields l).2.2.1.trans hc
  have work : ((s.stopKeying l m).line l).circuit = (((s.noticeDropped l).stopCircuit l).line l).circuit := by
    rw [State.stopKeying_workStopped, State.line_modLine_self]
    rfl
  have mode := s.stopKeying_mode l m
  by_cases linked : c.state = .linked
  · refine .inl ⟨c.toParked, ?_, nofun, hs, hq⟩
    rw [work, State.stopCircuit_linked circuit linked, State.setCircuit_circuit]
  by_cases parked : c.state = .parked
  · exact .inl ⟨c, by rw [work, State.stopCircuit_parked circuit parked, circuit], live, hs, hq⟩
  refine .inr ⟨?_, mode⟩
  by_cases clearing : c.state = .clearing
  · rw [work, State.stopCircuit_clearing circuit clearing, State.completeClear_line]
  · obtain ⟨calls, line⟩ := (s.noticeDropped l).operationEnded_line l c
    rw [work, State.stopCircuit_operation circuit (CircuitState.operation_of_ne linked parked clearing), line]

theorem State.serves_modLine (h : s.serves l ship q) {f : Line → Line} (circuit : ∀ x, (f x).circuit = x.circuit) :
    (s.modLine l f).serves l ship q := by
  obtain ⟨c, hc, rest⟩ := h
  exact ⟨c, by rw [State.line_modLine_self, circuit, hc], rest⟩

/-- The silence check takes a circuit from a line alone that it makes SILENT (R14). -/
theorem State.silenceCheck_serves (h : s.serves l ship q) : (s.silenceCheck l).serves l ship q
    ∨ (((s.silenceCheck l).line l).circuit = none ∧ ((s.silenceCheck l).line l).mode = .silent) := by
  have stop := State.stopKeying_serves h .silent
  unfold State.silenceCheck
  split
  case h_5 =>
    split
    · exact .inl h
    · exact .inl (State.serves_modLine h fun _ => rfl)
  case h_6 | h_7 => exact .inl h
  all_goals
    split
    · exact stop
    · exact .inl h

/-- An order takes a circuit from a line alone that it stops (R16). -/
theorem State.actOrder_serves (h : s.serves l ship q) (order : LineOrder) : (s.actOrder l order).1.serves l ship q
    ∨ (((s.actOrder l order).1.line l).circuit = none
      ∧ ((s.actOrder l order).1.line l).mode.heldSilent = true) := by
  have stop : (s.stopKeying l .stopped).serves l ship q
      ∨ (((s.stopKeying l .stopped).line l).circuit = none
        ∧ ((s.stopKeying l .stopped).line l).mode.heldSilent = true) :=
    (State.stopKeying_serves h .stopped).imp_right fun ⟨none', mode⟩ => ⟨none', by rw [mode]; rfl⟩
  cases order <;> simp only [State.actOrder] <;> split
  case h_6 | h_7 => exact .inl h
  case h_1 | h_2 | h_3 | h_4 | h_5 => exact stop
  case start.isFalse | patternOn.isFalse | patternOff.isFalse => exact .inl h
  all_goals exact .inl (State.serves_modLine h fun _ => rfl)

/-- No order gives a SILENT line another mode but STOPPED (R16 to R19). -/
theorem State.actOrder_silent (none' : (s.line l).circuit = none) (mode : (s.line l).mode = .silent)
    (order : LineOrder) : ((s.actOrder l order).1.line l).circuit = none
      ∧ ((s.actOrder l order).1.line l).mode.heldSilent = true := by
  refine ⟨(State.actOrder_idleWith ⟨none', rfl⟩ order).1, ?_⟩
  cases order <;> simp [State.actOrder, State.patternAllowed, mode, Mode.heldSilent, State.stopKeying_mode]

/-- A mode step takes a circuit from a line alone that is then SILENT or STOPPED (R14, R16, R21). -/
theorem State.modeStep_serves (h : s.serves l ship q) : (s.modeStep l).1.serves l ship q
    ∨ (((s.modeStep l).1.line l).circuit = none ∧ ((s.modeStep l).1.line l).mode.heldSilent = true) := by
  have order : ((s.silenceCheck l).orderStep l).1.serves l ship q
      ∨ ((((s.silenceCheck l).orderStep l).1.line l).circuit = none
        ∧ (((s.silenceCheck l).orderStep l).1.line l).mode.heldSilent = true) := by
    have checked := State.silenceCheck_serves h
    generalize s.silenceCheck l = v at checked
    unfold State.orderStep
    dsimp only
    split
    · exact checked.imp_right fun ⟨none', mode⟩ => ⟨none', by rw [mode]; rfl⟩
    · rcases checked with serves | ⟨none', mode⟩
      · exact State.actOrder_serves (State.serves_modLine (f := fun x => { x with held := none }) serves fun _ => rfl) _
      · refine .inr (State.actOrder_silent ?_ ?_ _)
        · rw [State.line_modLine_self]; exact none'
        · rw [State.line_modLine_self]; exact mode
  show (State.keyingCheck ((s.silenceCheck l).orderStep l).1 l).serves l ship q ∨ _
  generalize hv : ((s.silenceCheck l).orderStep l).1 = v at order
  have step : (s.modeStep l).1 = v.keyingCheck l := by rw [← hv]; rfl
  rw [step]
  rcases order with serves | ⟨none', mode⟩
  · refine .inl ?_
    unfold State.keyingCheck
    split
    · exact State.serves_modLine serves fun _ => rfl
    · exact serves
  · rw [State.keyingCheck_other (.inl fun e => by rw [e] at mode; cases mode)]
    exact .inr ⟨none', mode⟩

/-- The circuit that the settling leaves of a line, past its operations, is the one that the boundary shows, by ship
and q. -/
theorem State.boundary_serves (h : (s.settled l).serves l ship q) (undisturbed : (s.settled l).undisturbed l) :
    ∀ c', ((s.boundary l).line l).circuit = some c' → c'.ship = ship ∧ c'.q = q := by
  intro c' hc'
  obtain ⟨c, hc, rest⟩ := h
  have worked : (s.worked l).serves l ship q := ⟨c, (State.worked_undisturbed undisturbed).1.trans hc, rest⟩
  rw [State.boundary_line, Line.handed_circuit, State.chosen_eq, State.stepped_eq] at hc'
  rcases State.modeStep_serves worked with ⟨d, hd, live, hs, hq⟩ | ⟨none', mode⟩
  · obtain ⟨e, he, -, es, eq⟩ := (Choosing.choice ((s.worked l).modeStep l).1).circuit d hd live
    cases he.symm.trans hc'
    exact ⟨es.trans hs, eq.trans hq⟩
  · rw [State.choice_heldSilent mode] at hc'
    dsimp only at hc'
    rw [none'] at hc'
    cases hc'

end boundary

/-- A BLOCK acknowledged: the circuit's q is updated, and it stays LINKED or clears (R37, R39, R122). -/
theorem State.settled_quality {chars : List Byte} (hc : (s.line l).circuit = some c) (state : c.state = .linked)
    (ended : (s.line l).ended = some (.block chars)) (good : (s.line l).outcome = some .good)
    (held : ∀ i, c.current = some i → (s.record i).isSome) :
    ∃ d, ((s.settled l).line l).circuit = some d ∧ (d.state = .linked ∨ d.state = .clearing)
      ∧ d.ship = c.ship ∧ d.q = qualityUpdate c.q c.k := by
  obtain ⟨idle, current, -⟩ := State.settled_block hc ended state rfl
  cases hi : c.current with
  | none => exact ⟨c.acknowledged, by rw [idle good hi, State.setCircuit_circuit], .inl state, rfl, rfl⟩
  | some i =>
    obtain ⟨cut, uncut⟩ := current i good hi
    cases hcut : c.cut with
    | true =>
      refine ⟨{ c.acknowledged with current := none, cut := false }, ?_, .inl state, rfl, rfl⟩
      rw [cut hcut, State.cutGood, State.endOfMessage_line]
      exact State.setCircuit_circuit ..
    | false =>
      obtain ⟨r, hr⟩ := Option.isSome_iff_exists.mp (held i hi)
      have done' : ∀ v : State, ((v.messageDone l c.acknowledged i).line l).circuit
          = some { c.acknowledged with current := none } := fun v => by
        rw [State.messageDone, State.endOfMessage_line, State.modEntry, State.line_modLine_self]
        exact State.setCircuit_circuit ..
      rw [uncut hcut, State.blockGood, show (s.heeding l).record i = some r from hr]
      dsimp only
      split
      · rw [State.deliver_eq]
        split
        · exact ⟨_, State.setCircuit_circuit .., .inr rfl, rfl, rfl⟩
        · exact ⟨_, done' _, .inl state, rfl, rfl⟩
      · exact ⟨c.acknowledged, State.setCircuit_circuit .., .inl state, rfl, rfl⟩

/-- Settles O17: the settling stage by the circuit's state, the cycle and its outcome; the q that it leaves stands to
the end of the boundary, since no later stage writes it and none begins another circuit. -/
theorem qualityUpdatedAtGoodBlock : Obligations.QualityUpdatedAtGoodBlock := by
  unfold Obligations.QualityUpdatedAtGoodBlock
  refine ⟨fun l s c r chars hp hc state hr cycle good held => ⟨_, exec_boundary s l hp, ?_⟩,
    fun l s c ended hc he => ?_⟩
  · obtain ⟨d, hd, live, ship, q⟩ := State.settled_quality hc state (Line.ended_of_cycle hr cycle) good held
    rw [← qualityUpdate_eq]
    refine State.boundary_serves ⟨d, hd, ?_, ship, q⟩ fun d' hd' => ?_
    · rcases live with h | h <;> rw [h] <;> nofun
    · cases hd.symm.trans hd'
      rcases live with h | h <;> rw [h] <;> exact ⟨nofun, fun h => by simp at h⟩
  have line := s.heeding_line l
  dsimp only
  rw [← qualityUpdate_eq]
  refine ⟨fun state ⟨chars, block⟩ => ⟨fun good i r z hi hr hb hl hs => ?_, fun bad => ?_⟩, fun state idle => ?_,
    fun state rephase => ?_, fun state align => ?_⟩
  · obtain ⟨cut, uncut⟩ := (State.settled_block hc he state block).2.1 i good hi
    have hr' : (s.heeding l).record i = some r := hr
    obtain ⟨v, vline, vrecord, vpages, more, last⟩ := State.blockGood_progress (l := l) (c := c) hr' hb rfl
    rw [line] at vline
    refine ⟨fun whole n => ?_, fun whole n => ?_, fun notice => ?_⟩
    · rw [uncut whole, more n, vline]
      exact ⟨rfl, rfl, vrecord⟩
    · obtain ⟨done', calls, clears, stays⟩ := State.deliver_spec (c := c.acknowledged) (by rw [vline]) vrecord rfl hl hs
        z.clearAfter
      rw [← last n, ← uncut whole] at done' calls clears stays
      obtain ⟨report, record, pages, window, counters⟩ := done'
      rw [vline] at window counters calls
      refine ⟨report, ⟨Record.spent_fields record, pages.trans (by rw [vpages]; rfl), window, counters⟩, calls, clears,
        stays⟩
    · obtain ⟨done', calls, circuit⟩ := State.cutGood_spec (State.heeding_circuit hc) hr' hb hl hs
      rw [← cut notice] at done' calls circuit
      obtain ⟨report, record, pages, window, counters⟩ := done'
      rw [line] at window counters calls
      exact ⟨report, ⟨Record.spent_fields record, pages, window, counters⟩, calls, circuit⟩
  · exact State.settled_failed ((State.settled_block hc he state block).2.2 bad) rfl rfl
  · obtain ⟨answered, unanswered⟩ := State.settled_idleblock hc he state idle
    refine ⟨fun good => ?_, fun bad => State.settled_failed (unanswered bad) rfl rfl⟩
    rw [answered good, State.setCircuit_circuit]
  · rw [State.settled_rephase hc he state rephase, State.setCircuit_circuit, Circuit.afterRephase]
    exact ⟨fun few => by rw [if_pos few], fun two => by rw [if_neg (Nat.not_lt.mpr two)]⟩
  · obtain ⟨edge, more, last⟩ := State.settled_realign hc he state align
    refine ⟨fun heard => ?_, fun unheard below => ?_, fun unheard above => ?_⟩
    · rw [edge heard, State.setCircuit_circuit]
    · rw [more unheard below, State.setCircuit_circuit]
    · have circuit := State.heeding_circuit hc
      rw [last unheard above]
      refine ⟨circuitLost_congr (State.loseCircuit_lost circuit) rfl (by rw [line]) (by rw [line]) rfl rfl, ?_⟩
      rw [(State.loseCircuit_line circuit true).2, line]

end Sys2Proof.Machine

namespace Sys2Proof.Machine

/-! ## The items of a configuration image -/

/-- A value held below a limit. -/
theorem min_eq_ite_gt (high v : Nat) : min high v = if v > high then high else v := by
  split <;> omega

/-- A value held between two limits. -/
theorem clamp_eq_ite {low high : Nat} (h : low ≤ high) (v : Nat) :
    clamp low high v = if v < low then low else if v > high then high else v := by
  unfold clamp
  split
  · omega
  · split <;> omega

/-- A value held between 1 and a limit: 0 becomes 1. -/
theorem clamp_one {high : Nat} (h : 1 ≤ high) (v : Nat) :
    clamp 1 high v = if v = 0 then 1 else if v > high then high else v := by
  rw [clamp_eq_ite h]
  simp only [Nat.lt_one_iff]

theorem readLine_band (image : List Byte) (base : Nat) :
    (readLine image base).band.val = min 7 (imageByte image (base + 2)) :=
  Nat.mod_eq_of_lt (by omega)

/-- REPEATS by class type (R63). -/
theorem clampRepeats_eq (kind : ClassType) (v : Nat) :
    clampRepeats kind v = if v > 8 then 8 else if v = 0 ∧ kind = .cutIn then 1 else v := by
  cases kind <;> simp only [clampRepeats, clamp] <;> grind

/-- Settles O6: each item read is the one its clamp gives. -/
theorem imageItemsClamped : Obligations.ImageItemsClamped := by
  intro image l j
  have line : (readImage image).lines[l] = readLine image (113 + 56 * l.val) := vecOf_get 4 _ l
  have entry : (readImage image).classes[j] = readClass image j.val := vecOf_get 16 _ j
  dsimp only
  rw [line, entry, readLine_band]
  exact ⟨min_eq_ite_gt _ _, min_eq_ite_gt _ _, rfl, rfl, min_eq_ite_gt _ _, clamp_eq_ite (by decide) _,
    clamp_one (by decide) _, clamp_one (by decide) _, clampRepeats_eq _ _⟩

end Sys2Proof.Machine

namespace Sys2Proof.Machine

variable {s : State}

/-! ## A post at the gate -/

/-- The pool and the table refuse a record for a key that none holds (R132, R136). -/
theorem State.createRecord_full {k : Key} {n : Nat} (st : RecordState) (timer : Bool) (b : Body)
    (full : (∀ j, s.record j ≠ none) ∨ s.freePages.length < pagesFor n) :
    s.createRecord k n st timer b = none := by
  unfold State.createRecord
  split
  · next i _ free =>
    have pages : s.freePages.length < pagesFor n := full.resolve_left fun h => h i (State.freeSlot_spec free)
    rw [if_pos pages]
  · rfl

/-- A key is found just where a record holds it (R132). -/
theorem State.findKey_eq_none_iff (k : Key) :
    s.findKey k = none ↔ ¬ ∃ j r, s.record j = some r ∧ r.key = k := by
  refine ⟨fun h => ?_, fun h => State.findKey_none fun j r hr e => h ⟨j, r, hr, e⟩⟩
  rintro ⟨j, r, hr, e⟩
  have none := List.find?_eq_none.mp h j (List.mem_finRange j)
  simp [hr, e] at none

/-- A line is a target of a post by its channel and its mode (R65). -/
theorem State.mem_targetLines {channels : List (Fin 1024)} {l : LineId} :
    l ∈ s.targetLines channels ↔ (s.lineConfig l).channel ≠ 0 ∧ (s.line l).mode ≠ .disabled
      ∧ ∃ c ∈ channels, c.val = (s.lineConfig l).channel := by
  have all : l ∈ lineIds := by fin_cases l <;> decide
  simp [State.targetLines, all, and_assoc]

/-- A post is taken by a card that is not in FAULT: ranks are those of the rank map (R170, R171). -/
theorem State.rank_of_post {h : Header} (taken : s.reception .post h h.source true = .taken) (source : Station) :
    s.rank source = s.config.rankMap[source] := by
  obtain ⟨-, -, -, -, -, fault⟩ := (s.reception_taken_iff ..).mp taken
  rw [State.rank, if_neg (by simpa [handedInFault] using fault)]

/-- A post taken, its list of 1 to 8 channels (R64). -/
theorem exec_post {h : Header} {channels : List (Fin 1024)} (number : MsgNumber) (cls : Fin 16) (n : Fin 8192)
    (taken : s.reception .post h h.source true = .taken) (one : 1 ≤ channels.length) (eight : channels.length ≤ 8) :
    exec (.post h number cls n channels) s = .next (s.takePost ⟨h.source, number⟩ cls n.val channels) := by
  have ok : (decide (1 ≤ channels.length) && decide (channels.length ≤ 8)) = true := by simp [one, eight]
  show execPost h number cls n channels s = _
  rw [execPost, ok, State.receive_taken taken]

/-- A post of a held key, or without a target line, changes nothing (R64, R66). -/
theorem State.takePost_ignored {key : Key} {cls : Fin 16} {n : Nat} {channels : List (Fin 1024)}
    (h : s.findKey key ≠ none ∨ s.targetLines channels = []) : s.takePost key cls n channels = s := by
  unfold State.takePost
  split
  · rfl
  · next free => rw [h.resolve_left fun c => c free]

/-- A post of a free key with a target line goes through the gate (R66). -/
theorem State.takePost_gate {key : Key} {channels : List (Fin 1024)} (free : s.findKey key = none)
    (target : s.targetLines channels ≠ []) (cls : Fin 16) (n : Nat) :
    s.takePost key cls n channels = match s.gateRefusal key.station cls n with
      | some reason => s.refusePost key reason
      | none => s.acceptPost key cls n (s.targetLines channels) := by
  unfold State.takePost
  rw [free]
  dsimp only
  split
  · next e => exact absurd e target
  · rfl

/-- A refusal in a queue with room is queued for the poster, and nothing else changes (R67). -/
theorem State.refusePost_room (room : s.queue.length < 24) (key : Key) (reason : Reason) :
    s.refusePost key reason = { s with queue := enqueue ⟨key.station, .refused key reason⟩ s.queue } :=
  if_pos room

/-- Settles O34: the checks of R66 in their order, each refusing what the ones before it let pass. -/
theorem postRefusedInGateOrder : Obligations.PostRefusedInGateOrder := by
  intro h number cls n channels s taken one eight room key held target out closed low full refused
  have heldIff : s.findKey key = none ↔ ¬ held := s.findKey_eq_none_iff key
  have targetIff : s.targetLines channels ≠ [] ↔ target := by
    simp only [ne_eq, List.eq_nil_iff_forall_not_mem, State.mem_targetLines, not_forall, not_not]
    exact Iff.rfl
  have run := exec_post number cls n taken one eight
  refine ⟨fun ignored => ?_, fun free aimed => ?_⟩
  · rw [run, State.takePost_ignored]
    exact ignored.imp (fun c e => heldIff.mp e c) fun c => by_contra fun e => c (targetIff.mp e)
  have gate := State.takePost_gate (heldIff.mpr free) (targetIff.mpr aimed) cls n.val
  have refusedBy : ∀ reason, s.gateRefusal h.source cls n.val = some reason → refused reason := fun reason e => by
    show exec _ s = _
    rw [run, gate, e]
    exact congrArg _ (State.refusePost_room room key reason)
  have rank := State.rank_of_post taken h.source
  refine ⟨fun c1 => refusedBy _ ?_, fun c1 c2 => refusedBy _ ?_, fun c1 c2 c3 => refusedBy _ ?_,
    fun c1 c2 c3 c4 => refusedBy _ ?_, fun c1 c2 c3 c4 c5 => ?_⟩
  · exact if_pos c1
  · exact (if_neg c1).trans (if_pos c2)
  · exact (if_neg c1).trans ((if_neg c2).trans (if_pos (rank ▸ c3)))
  · exact (if_neg c1).trans ((if_neg c2).trans ((if_neg (rank ▸ c3)).trans (if_pos c4)))
  · have passed : s.gateRefusal h.source cls n.val = none :=
      (if_neg c1).trans ((if_neg c2).trans ((if_neg (rank ▸ c3)).trans (if_neg c4)))
    show exec _ s = _
    rw [run, gate, passed]
    dsimp only
    rw [State.acceptPost, State.createRecord_full _ _ _ c5]
    exact congrArg _ (State.refusePost_room room key _)

/-! ## A post accepted -/

theorem State.targetLines_nodup (channels : List (Fin 1024)) : (s.targetLines channels).Nodup :=
  List.Nodup.filter _ (by decide)

/-- A line that a slot joins by its class type (R69, R70). -/
def State.joined (s : State) (i : Slot) (kind : ClassType) (cls : Nat) (x : Line) : Line :=
  match kind with
  | .cutIn => { x with cutInQueue := x.cutInQueue ++ [i] }
  | .window => { x with windowQueue := s.joinByClass cls i x.windowQueue }
  | .free => { x with freeQueue := x.freeQueue ++ [i] }
  | .closed => x

theorem State.joined_congr {t : State} (h : t.records = s.records) (i : Slot) (kind : ClassType) (cls : Nat) :
    t.joined i kind cls = s.joined i kind cls := by
  have classes : t.classOf = s.classOf := by
    funext j
    rw [State.classOf, State.classOf, State.record_congr h]
  funext x
  cases kind <;> simp only [State.joined, State.joinByClass, classes]

/-- A slot that joins the queues of some lines, each once, changes these lines alone (R69). -/
theorem State.joinQueues_lines (i : Slot) (kind : ClassType) (cls : Nat) (targets : List LineId) : ∀ s t : State,
    t = targets.foldl (fun t l => t.joinQueue l i kind cls) s → targets.Nodup →
      t = { s with lines := t.lines }
        ∧ ∀ l, t.line l = if l ∈ targets then s.joined i kind cls (s.line l) else s.line l := by
  induction targets with
  | nil => rintro s t rfl -; exact ⟨rfl, fun _ => rfl⟩
  | cons m rest ih =>
    intro s t ht nodup
    obtain ⟨fresh, nodup'⟩ := List.nodup_cons.mp nodup
    obtain ⟨frame, lines⟩ := ih (s.joinQueue m i kind cls) t ht nodup'
    refine ⟨frame, fun l => ?_⟩
    rw [lines, State.joined_congr (s := s) (t := s.joinQueue m i kind cls) rfl]
    by_cases hl : l = m
    · subst hl
      rw [if_neg fresh, if_pos (List.mem_cons_self ..), State.joinQueue, State.line_modLine_self]
      cases kind <;> rfl
    · have same : (s.joinQueue m i kind cls).line l = s.line l := State.line_modLine_ne _ _ hl
      rw [same]
      simp [hl]

/-- A window part stands behind the parts of its class or a lower one (R70). -/
theorem State.joinByClass_split (s : State) (cls : Nat) (i : Slot) (q : List Slot) : ∃ a b, q = a ++ b
    ∧ s.joinByClass cls i q = a ++ [i] ++ b ∧ (∀ j ∈ a, s.classOf j ≤ cls)
    ∧ ∀ j, b.head? = some j → cls < s.classOf j := by
  refine ⟨q.takeWhile fun j => s.classOf j ≤ cls, q.dropWhile fun j => s.classOf j ≤ cls,
    List.takeWhile_append_dropWhile.symm, rfl, fun j hj => ?_, fun j hj => ?_⟩
  · simpa using List.mem_takeWhile_imp hj
  · have := List.head?_dropWhile_not (fun j => decide (s.classOf j ≤ cls)) q
    rw [hj] at this
    simpa using this

/-- Settles O35: the record of R68 in the lowest free slot, and its parts in their queues. -/
theorem postAccepted : Obligations.PostAccepted := by
  intro h number cls n channels s i taken one eight fresh target inTable open' ranked some' free low room e
  have rank := State.rank_of_post taken h.source
  have passed : s.gateRefusal h.source cls n.val = none :=
    (if_neg (Nat.not_le.mpr inTable)).trans ((if_neg open').trans
      ((if_neg (by rw [rank]; exact not_lt.mpr ranked)).trans (if_neg some')))
  have made := State.createRecord_some (s := s) (n := n.val) .loading true
    (.bulletin { cls := cls, kind := e.kind, repeats := e.repeats
                 parts := (s.targetLines channels).map (newPart e.repeats), cutCounted := false })
    fresh free low room
  generalize hv : State.setRecord _ i _ = v at made
  have record : v.record i = _ := hv ▸ State.record_setRecord_self _ i _
  have others : ∀ j, j ≠ i → v.record j = s.record j := fun j hj => hv ▸ State.record_setRecord_ne _ _ hj
  have old : ∀ l, v.line l = s.line l := fun l => hv ▸ rfl
  have frame : v = { s with records := v.records, freePages := s.freePages.drop (pagesFor n.val) } := hv ▸ rfl
  have accepted : s.takePost ⟨h.source, number⟩ cls n.val channels
      = (s.targetLines channels).foldl (fun t l => t.joinQueue l i e.kind cls.val) v := by
    rw [State.takePost_gate (State.findKey_none fresh) target, passed]
    dsimp only
    rw [State.acceptPost, made]
  refine ⟨_, (exec_post number cls n taken one eight).trans (congrArg _ accepted), ?_⟩
  generalize ht : List.foldl _ v _ = t
  obtain ⟨joined, lines⟩ := State.joinQueues_lines i e.kind cls.val _ v t ht.symm (State.targetLines_nodup channels)
  have records : t.records = v.records := by rw [joined]
  simp only [old] at lines
  refine ⟨(State.record_congr records i).trans record, fun j hj => (State.record_congr records j).trans (others j hj),
    fun l hl => (lines l).trans (if_neg hl), fun l hl => ?_, ?_⟩
  · have line := (lines l).trans (if_pos hl)
    refine ⟨fun k => ?_, fun k => ?_, fun k => ?_⟩
    · rw [line, k]; rfl
    · rw [line, k]; rfl
    · obtain ⟨a, b, split', placed, before, behind⟩ := v.joinByClass_split cls.val i (s.line l).windowQueue
      refine ⟨a, b, split', ?_, ?_⟩
      · rw [line, k, ← placed]; rfl
      · simpa only [State.classOf, State.record_congr records] using And.intro before behind
  · rw [joined, frame]; rfl

end Sys2Proof.Machine

namespace Sys2Proof.Machine

variable (s : State) (r : Record)

/-! ## The on-air form of a bulletin -/

theorem State.formCycle_head {step : Nat} (h : step ≤ 2) :
    s.formCycle r step = .bhead r.key ((r.bulletin?.map (·.cls)).getD 0) r.n := if_pos h

theorem State.formCycle_text {step : Nat} (text : 3 ≤ step) (last : step ≤ textCycles r.n + 2) :
    s.formCycle r step = .btext (s.readChars r (6 * (step - 3) + 1) (min 6 (r.n - 6 * (step - 3)))) :=
  (if_neg (by omega)).trans (if_pos last)

theorem State.formCycle_end : s.formCycle r (textCycles r.n + 3) = .bend :=
  (if_neg (by omega)).trans (if_neg (by omega))

theorem State.length_readChars (start count : Nat) : (s.readChars r start count).length = count := by
  simp [State.readChars]

/-- The characters of a text, read in two pieces. -/
theorem State.readChars_append (start a b : Nat) :
    s.readChars r start a ++ s.readChars r (start + a) b = s.readChars r start (a + b) := by
  simp only [State.readChars, List.range_add, List.map_append, List.map_map, Function.comp_def, Nat.add_assoc]

/-- The first BTEXT cycles of a sending carry the beginning of the text (R75). -/
theorem State.flatMap_readChars (k : Nat) :
    (List.range k).flatMap (fun j => s.readChars r (6 * j + 1) (min 6 (r.n - 6 * j)))
      = s.readChars r 1 (min r.n (6 * k)) := by
  induction k with
  | zero => simp [State.readChars]
  | succ k ih =>
    rw [List.range_succ, List.flatMap_append, ih, List.flatMap_singleton]
    by_cases h : 6 * k ≤ r.n
    · rw [Nat.min_eq_right h, Nat.add_comm (6 * k) 1, State.readChars_append]
      congr 1
      omega
    · have none : min 6 (r.n - 6 * k) = 0 := by omega
      have all : min r.n (6 * (k + 1)) = min r.n (6 * k) := by omega
      rw [none, all]
      simp [State.readChars]

/-- The BTEXT cycles of a sending carry the whole text, in order (R75): `chars` reads the characters of a
cycle. -/
theorem State.formCycle_carries {chars : Cycle → List Byte} (h : ∀ text, chars (.btext text) = text) :
    (List.range (textCycles r.n)).flatMap (fun j => chars (s.formCycle r (j + 3))) = s.readChars r 1 r.n := by
  have whole : min r.n (6 * textCycles r.n) = r.n := by
    simp only [textCycles, ceilDiv]
    omega
  have cycles : ∀ j ∈ List.range (textCycles r.n), chars (s.formCycle r (j + 3))
      = s.readChars r (6 * j + 1) (min 6 (r.n - 6 * j)) := fun j hj => by
    have := List.mem_range.mp hj
    rw [State.formCycle_text s r (by omega) (by omega), h, Nat.add_sub_cancel]
  rw [List.flatMap_congr cycles, State.flatMap_readChars, whole]

end Sys2Proof.Machine

namespace Sys2Proof.Machine

variable {l : LineId} {i : Slot} {s t : State} {r : Record} {b : Bulletin} {p : Part}

/-! ## The parts of a record -/

theorem Record.parts_bulletin (hb : r.body = .bulletin b) : r.parts = b.parts := by
  simp [Record.parts, Record.bulletin?, hb]

theorem Record.modPart_bulletin (hb : r.body = .bulletin b) (l : LineId) (f : Part → Part) :
    r.modPart l f = { r with body := .bulletin { b with
      parts := b.parts.map fun q => if q.line = l then f q else q } } := by
  simp [Record.modPart, Record.modBulletin, hb]

theorem State.part?_of_record (h : s.record i = some r) (l : LineId) : s.part? i l = r.part? l := by
  simp [State.part?, h]

/-- The part found for a line is a part of the record, and stands on the line (R71). -/
theorem Record.part?_spec (h : r.part? l = some p) : p ∈ r.parts ∧ p.line = l :=
  ⟨List.mem_of_find?_eq_some h, by simpa using List.find?_some h⟩

/-- The part of a line, changed on the line. -/
theorem State.part?_modPart (s : State) (i : Slot) (l : LineId) {f : Part → Part} (h : ∀ q, (f q).line = q.line) :
    (s.modPart i l f).part? i l = (s.part? i l).map f := by
  unfold State.part? State.modPart
  rw [State.record_modRecord_self]
  cases s.record i with
  | none => rfl
  | some r =>
    rw [Option.map_some, Option.bind_some, Record.part?_modPart r l l f h]
    simp

/-! ## Pass marks -/

/-- A part with its pass-mark cleared (R101). -/
def Part.unmarked (q : Part) : Part := { q with passMark := false }

/-- Clearing the marks of a line's window queue twice is clearing them once. -/
theorem Record.modPart_unmarked_twice (r : Record) (l : LineId) :
    (r.modPart l Part.unmarked).modPart l Part.unmarked = r.modPart l Part.unmarked := by
  cases hb : r.body with
  | telex x => simp [Record.modPart, Record.modBulletin, hb]
  | bulletin b =>
    rw [Record.modPart_bulletin hb, Record.modPart_bulletin rfl]
    simp only [List.map_map, Function.comp_def]
    congr 3
    refine List.map_congr_left fun q _ => ?_
    by_cases h : q.line = l <;> simp [h, Part.unmarked]

/-- The records after the pass-marks of a window queue are cleared (R101). -/
theorem State.clearPassMarks_record (s : State) (l : LineId) (i : Slot) :
    (s.clearPassMarks l).record i
      = if i ∈ (s.line l).windowQueue then (s.record i).map fun r => r.modPart l Part.unmarked else s.record i := by
  have fold : ∀ (q : List Slot) (t : State), (q.foldl (fun t j => t.modPart j l Part.unmarked) t).record i
      = if i ∈ q then (t.record i).map fun r => r.modPart l Part.unmarked else t.record i := by
    intro q
    induction q with
    | nil => exact fun t => rfl
    | cons j q ih =>
      intro t
      rw [List.foldl_cons, ih]
      by_cases hj : i = j
      · subst hj
        rw [State.modPart, State.record_modRecord_self, Option.map_map, if_pos (List.mem_cons_self ..)]
        have once : (fun r : Record => r.modPart l Part.unmarked) ∘ (fun r : Record => r.modPart l Part.unmarked)
            = fun r : Record => r.modPart l Part.unmarked := funext fun r => Record.modPart_unmarked_twice r l
        rw [once, ite_self]
      · rw [State.modPart, State.record_modRecord_ne _ _ hj]
        simp [hj]
  exact fold _ s

theorem State.clearPassMarks_frame (s : State) (l : LineId) : (s.clearPassMarks l).lines = s.lines
    ∧ (s.clearPassMarks l).reports = s.reports ∧ (s.clearPassMarks l).freePages = s.freePages := by
  have fold : ∀ (q : List Slot) (t u : State), u = q.foldl (fun t j => t.modPart j l Part.unmarked) t →
      u.lines = t.lines ∧ u.reports = t.reports ∧ u.freePages = t.freePages := by
    intro q
    induction q with
    | nil => rintro t u rfl; exact ⟨rfl, rfl, rfl⟩
    | cons j q ih => exact fun t u e => ih (t.modPart j l Part.unmarked) u e
  exact fold _ s _ rfl

/-- What the end of a window unit does (R101): no window part is left unmarked in an open window, which closes
with the marks of its queue cleared, or the window stays as it is. -/
structure UnitEnded (l : LineId) (s t : State) : Prop where
  line : ∃ window arbiter, t.line l = { s.line l with window := window, arbiter := arbiter }
  reports : t.reports = s.reports
  pages : t.freePages = s.freePages
  records : (t.records = s.records ∧ (t.line l).window.state = (s.line l).window.state)
    ∨ ((s.line l).window.state = .isOpen ∧ (t.line l).window.state = .closed
      ∧ ∀ i, t.record i = if i ∈ (s.line l).windowQueue then (s.record i).map fun r => r.modPart l Part.unmarked
        else s.record i)

theorem UnitEnded.refl (l : LineId) (s : State) : UnitEnded l s s :=
  ⟨⟨_, _, rfl⟩, rfl, rfl, .inl ⟨rfl, rfl⟩⟩

theorem State.unitEnds_ended (s : State) (l : LineId) : UnitEnded l s (s.unitEnds l) := by
  unfold State.unitEnds
  split
  · next opened =>
    generalize hv : s.modLine l _ = v
    have line : v.line l = { s.line l with
        window := { (s.line l).window with unitsEnded := true }, arbiter := (s.line l).arbiter.endBTurn } := by
      rw [← hv, State.line_modLine_self]
    have records : v.records = s.records := hv ▸ rfl
    dsimp only
    split
    · exact ⟨⟨_, _, line⟩, hv ▸ rfl, hv ▸ rfl, .inl ⟨records, by rw [line]⟩⟩
    · have closed : (v.closeWindow l).line l = { v.line l with
          window := { (v.line l).window with state := .closed, unitsEnded := false }
          arbiter := (v.line l).arbiter.endBTurn } := by
        rw [State.closeWindow, State.line_modLine_self, State.line_congr (v.clearPassMarks_frame l).1]
      obtain ⟨-, reports, pages⟩ := v.clearPassMarks_frame l
      refine ⟨⟨_, _, by rw [closed, line]⟩, reports.trans (hv ▸ rfl), pages.trans (hv ▸ rfl),
        .inr ⟨opened, by rw [closed], fun i => ?_⟩⟩
      show (v.clearPassMarks l).record i = _
      rw [State.clearPassMarks_record, line, State.record_congr records]
  · exact .refl l s

/-! ## Retirement -/

theorem State.retireIfDone_stays (h : s.record i = some r)
    (stays : r.withdrawMark = true ∨ r.parts = [] ∨ ∃ q ∈ r.parts, q.state ≠ .done) : s.retireIfDone i = s := by
  unfold State.retireIfDone
  rw [h]
  exact if_pos (by simpa using stays)

/-- A record with every part DONE and a report that waits is retired to REPORTING (R78). -/
theorem State.retireIfDone_retires (h : s.record i = some r) (unmarked : r.withdrawMark = false) (parts : r.parts ≠ [])
    (done : ∀ q ∈ r.parts, q.state = .done) {q : Report} (hq : q ∈ s.reports) (slot : q.slot = i) :
    s.retireIfDone i = s.endWork i := by
  have retires : s.retireIfDone i = (s.endWork i).freeIfSpent i := by
    unfold State.retireIfDone
    rw [h]
    exact if_neg (by simpa [unmarked, parts] using done)
  have waits : q ∈ (s.endWork i).reports := by rw [State.endWork_frame]; exact hq
  rw [retires]
  rcases (s.endWork i).freeIfSpent_cases i with e | ⟨-, -, -, spent, -⟩
  · exact e
  · exact absurd slot (spent q waits)

/-- Retirement touches no line and no report (R78). -/
theorem State.retireIfDone_frame (s : State) (i : Slot) :
    (s.retireIfDone i).lines = s.lines ∧ (s.retireIfDone i).reports = s.reports := by
  have ended : (s.endWork i).lines = s.lines ∧ (s.endWork i).reports = s.reports := by
    rw [State.endWork_frame]; exact ⟨rfl, rfl⟩
  unfold State.retireIfDone
  split
  · exact ⟨rfl, rfl⟩
  · split
    · exact ⟨rfl, rfl⟩
    · rcases (s.endWork i).freeIfSpent_cases i with e | ⟨-, -, -, -, e⟩
      · rw [e]; exact ended
      · rw [e]; exact ended

/-! ## A BSENT made pending -/

theorem State.addBsent_frame (s : State) (i : Slot) (l : LineId) (left : Remaining) :
    (s.addBsent i l left).lines = s.lines ∧ (s.addBsent i l left).records = s.records
      ∧ (s.addBsent i l left).freePages = s.freePages := by
  unfold State.addBsent
  split <;> exact ⟨rfl, rfl, rfl⟩

theorem Report.isBsentOf_iff {q : Report} : q.isBsentOf i l = true ↔ ∃ left, q = ⟨i, .bsent l left⟩ := by
  obtain ⟨slot, item⟩ := q
  cases item <;> simp [Report.isBsentOf]

/-- One BSENT of the part is pending, with the new remaining (R79). -/
theorem State.addBsent_reports (s : State) (i : Slot) (l : LineId) (left : Remaining) :
    (⟨i, .bsent l left⟩ : Report) ∈ (s.addBsent i l left).reports
      ∧ ∀ other, (⟨i, .bsent l other⟩ : Report) ∈ (s.addBsent i l left).reports → other = left := by
  have own : ∀ other, Report.isBsentOf ⟨i, .bsent l other⟩ i l = true := fun other => Report.isBsentOf_iff.mpr ⟨_, rfl⟩
  unfold State.addBsent
  split
  · next found =>
    obtain ⟨q, hq, is⟩ := List.any_eq_true.mp found
    refine ⟨List.mem_map.mpr ⟨q, hq, if_pos is⟩, fun other h => ?_⟩
    obtain ⟨q', -, e⟩ := List.mem_map.mp h
    split at e
    · cases e; rfl
    · next not => exact absurd (e ▸ own other) not
  · next absent =>
    refine ⟨List.mem_append_right _ (List.mem_singleton_self _), fun other h => ?_⟩
    rcases List.mem_append.mp h with h | h
    · exact absurd (List.any_eq_true.mpr ⟨_, h, own other⟩) absent
    · cases List.mem_singleton.mp h; rfl

/-! ## A completed sending -/

/-- A line with a slot out of its bulletin queues. -/
def Line.without (i : Slot) (x : Line) : Line :=
  { x with
    cutInQueue := x.cutInQueue.erase i, windowQueue := x.windowQueue.erase i, freeQueue := x.freeQueue.erase i }

theorem State.leaveQueues_line (s : State) (l : LineId) (i : Slot) :
    (s.leaveQueues l i).line l = (s.line l).without i := State.line_modLine_self ..

/-- A line with a completed part in its place (R76, R77). -/
def Line.requeued (i : Slot) (kind : ClassType) (finished : Bool) (x : Line) : Line :=
  if finished then x.without i
  else match kind with
    | .window | .closed => x
    | .cutIn => { x.without i with cutInQueue := x.cutInQueue.erase i ++ [i] }
    | .free => { x.without i with freeQueue := x.freeQueue.erase i ++ [i] }

theorem State.requeue_line (s : State) (l : LineId) (i : Slot) (kind : ClassType) (finished : Bool) :
    (s.requeue l i kind finished).line l = (s.line l).requeued i kind finished := by
  cases finished with
  | true => exact State.leaveQueues_line ..
  | false =>
    cases kind with
    | window | closed => rfl
    | cutIn | free =>
      rw [State.requeue, if_neg Bool.false_ne_true]
      rw [State.joinQueue, State.line_modLine_self, State.leaveQueues_line]
      rfl

theorem State.requeue_frame (s : State) (l : LineId) (i : Slot) (kind : ClassType) (finished : Bool) :
    (s.requeue l i kind finished).records = s.records ∧ (s.requeue l i kind finished).freePages = s.freePages := by
  cases finished with
  | true => exact ⟨rfl, rfl⟩
  | false => cases kind <;> exact ⟨rfl, rfl⟩

/-- A part in its place again changes the queues of its line alone (R76, R77). -/
theorem Line.requeued_kept (x : Line) (i : Slot) (kind : ClassType) (finished : Bool) :
    (x.requeued i kind finished).counters = x.counters ∧ (x.requeued i kind finished).window = x.window := by
  cases finished with
  | true => exact ⟨rfl, rfl⟩
  | false => cases kind <;> exact ⟨rfl, rfl⟩

/-- A completed sending up to the end of its window unit: the part, its place, the count, and the BSENT (R76,
R77, R79). -/
def State.sent (s : State) (l : LineId) (i : Slot) (kind : ClassType) (left : Remaining) : State :=
  (((s.modPart i l fun q => q.completed kind).requeue l i kind (left = .times 0)).modCounters l fun c =>
    { c with bulletinSendings := bump c.bulletinSendings }).addBsent i l left

theorem State.completeSending_eq (hp : s.part? i l = some p) (hr : s.record i = some r) (hb : r.body = .bulletin b) :
    s.completeSending l i
      = (if b.kind = .window then (s.sent l i b.kind p.remaining.less).unitEnds l
        else s.sent l i b.kind p.remaining.less).retireIfDone i := by
  have bulletin : (s.record i).bind Record.bulletin? = some b := by simp [hr, Record.bulletin?, hb]
  unfold State.completeSending
  rw [hp, bulletin]
  rfl

section sent

variable (s l i) (kind : ClassType) (left : Remaining)

theorem State.sent_line : (s.sent l i kind left).line l = { (s.line l).requeued i kind (left = .times 0) with
    counters := { (s.line l).counters with bulletinSendings := bump (s.line l).counters.bulletinSendings } } := by
  rw [State.sent, State.line_congr (State.addBsent_frame ..).1, State.modCounters, State.line_modLine_self,
    State.requeue_line, (Line.requeued_kept ..).1]
  rfl

theorem State.sent_records : (s.sent l i kind left).records = (s.modPart i l fun q => q.completed kind).records :=
  (State.addBsent_frame ..).2.1.trans (State.requeue_frame ..).1

theorem State.sent_freePages : (s.sent l i kind left).freePages = s.freePages :=
  (State.addBsent_frame ..).2.2.trans (State.requeue_frame ..).2

end sent

/-- What becomes of the parts of a completed sending's line (R76): DONE or QUEUED by their new remaining. -/
def CompletesParts (f : Part → Part) : Prop :=
  ∀ q, (f q).line = q.line ∧ (f q).state = if q.remaining.less = .times 0 then .done else .queued

theorem Part.completes (kind : ClassType) : CompletesParts fun q => q.completed kind := fun _ => ⟨rfl, rfl⟩

theorem Part.completes_unmarked (kind : ClassType) : CompletesParts fun q => (q.completed kind).unmarked :=
  fun _ => ⟨rfl, rfl⟩

theorem Record.part?_completed {f : Part → Part} (h : CompletesParts f) (found : r.part? l = some p) :
    (r.modPart l f).part? l = some (f p) := by
  rw [Record.part?_modPart r l l f fun q => (h q).1, found]
  simp

/-- A completed sending before its record is looked at for retirement. -/
def State.unitSent (s : State) (l : LineId) (i : Slot) (kind : ClassType) (left : Remaining) : State :=
  if kind = .window then (s.sent l i kind left).unitEnds l else s.sent l i kind left

section unitSent

variable (s l i) (kind : ClassType) (left : Remaining)

theorem State.unitSent_ended : UnitEnded l (s.sent l i kind left) (s.unitSent l i kind left) := by
  unfold State.unitSent
  split
  · exact State.unitEnds_ended _ l
  · exact .refl l _

theorem State.unitSent_line : ∃ window arbiter, (s.unitSent l i kind left).line l =
    { (s.line l).requeued i kind (left = .times 0) with
      counters := { (s.line l).counters with bulletinSendings := bump (s.line l).counters.bulletinSendings }
      window := window, arbiter := arbiter } := by
  obtain ⟨window, arbiter, line⟩ := (s.unitSent_ended l i kind left).line
  exact ⟨window, arbiter, by rw [line, State.sent_line]⟩

theorem State.unitSent_reports :
    (s.unitSent l i kind left).reports = (s.sent l i kind left).reports := (s.unitSent_ended l i kind left).reports

theorem State.unitSent_freePages : (s.unitSent l i kind left).freePages = s.freePages :=
  (s.unitSent_ended l i kind left).pages.trans (s.sent_freePages l i kind left)

variable {s l i kind left}

theorem State.sent_record (hr : s.record i = some r) :
    (s.sent l i kind left).record i = some (r.modPart l fun q => q.completed kind) := by
  rw [State.record_congr (s.sent_records l i kind left), State.modPart, State.record_modRecord_self, hr]
  rfl

theorem Record.modPart_modPart (r : Record) (l : LineId) {f g : Part → Part} (h : ∀ q, (f q).line = q.line) :
    (r.modPart l f).modPart l g = r.modPart l fun q => g (f q) := by
  cases hb : r.body with
  | telex x => simp [Record.modPart, Record.modBulletin, hb]
  | bulletin b =>
    rw [Record.modPart_bulletin hb, Record.modPart_bulletin rfl, Record.modPart_bulletin hb]
    simp only [List.map_map, Function.comp_def]
    congr 3
    refine List.map_congr_left fun q _ => ?_
    by_cases hq : q.line = l <;> simp [hq, h]

/-- The record after a window unit: its parts stand as completed, or the window has closed and their marks are
cleared (R77, R101). -/
theorem State.unitSent_record (hr : s.record i = some r) :
    ((s.unitSent l i kind left).record i = some (r.modPart l fun q => q.completed kind)
      ∧ (kind = .window → i ∈ ((s.line l).requeued i kind (left = .times 0)).windowQueue →
        ((s.unitSent l i kind left).line l).window.state = (s.line l).window.state))
    ∨ ((s.unitSent l i kind left).record i = some (r.modPart l fun q => (q.completed kind).unmarked)
      ∧ kind = .window ∧ ((s.unitSent l i kind left).line l).window.state = .closed) := by
  have sent := State.sent_record (l := l) (kind := kind) (left := left) hr
  have line := s.sent_line l i kind left
  by_cases window : kind = .window
  · have window' : ((s.sent l i kind left).line l).window = (s.line l).window := by
      rw [line]
      exact (Line.requeued_kept ..).2
    rcases (s.unitSent_ended l i kind left).records with ⟨records, state⟩ | ⟨-, closed, records⟩
    · exact .inl ⟨(State.record_congr records i).trans sent, fun _ _ => state.trans (by rw [window'])⟩
    · have queue : ((s.sent l i kind left).line l).windowQueue
          = ((s.line l).requeued i kind (left = .times 0)).windowQueue := by rw [line]
      rw [records, queue, sent]
      split
      · exact .inr ⟨congrArg some (r.modPart_modPart l fun _ => rfl), window, closed⟩
      · next out => exact .inl ⟨rfl, fun _ h => absurd h out⟩
  · exact .inl ⟨by rw [State.unitSent, if_neg window, sent], fun h => absurd h window⟩

end unitSent

section completed

variable (hp : s.part? i l = some p) (hr : s.record i = some r) (hb : r.body = .bulletin b)
include hp hr hb

/-- The line of a completed sending: its count and its queues (R76, R77, R79). -/
theorem State.completeSending_line : ∃ window arbiter, (s.completeSending l i).line l =
    { (s.line l).requeued i b.kind (p.remaining.less = .times 0) with
      counters := { (s.line l).counters with bulletinSendings := bump (s.line l).counters.bulletinSendings }
      window := window, arbiter := arbiter } := by
  rw [State.completeSending_eq hp hr hb, State.line_congr (State.retireIfDone_frame _ i).1]
  exact s.unitSent_line l i b.kind p.remaining.less

/-- One BSENT with the new remaining is pending for a completed sending (R79). -/
theorem State.completeSending_bsent :
    (⟨i, .bsent l p.remaining.less⟩ : Report) ∈ (s.completeSending l i).reports
      ∧ ∀ other, (⟨i, .bsent l other⟩ : Report) ∈ (s.completeSending l i).reports → other = p.remaining.less := by
  rw [State.completeSending_eq hp hr hb, (State.retireIfDone_frame _ i).2]
  show _ ∈ (s.unitSent l i b.kind p.remaining.less).reports ∧ ∀ other, _ ∈ (s.unitSent _ _ _ _).reports → _
  rw [State.unitSent_reports]
  exact State.addBsent_reports ..

omit hp in
/-- The record after a completed sending, before it is looked at for retirement: its parts on the line are
completed, and no other field changes. -/
theorem State.unitSent_parts (left : Remaining) : ∃ f, CompletesParts f
    ∧ (s.unitSent l i b.kind left).record i = some { r with body := .bulletin { b with
      parts := b.parts.map fun q => if q.line = l then f q else q } } := by
  rcases State.unitSent_record (l := l) (kind := b.kind) (left := left) hr with ⟨record, -⟩ | ⟨record, -, -⟩
  · exact ⟨_, Part.completes b.kind, by rw [record, Record.modPart_bulletin hb]⟩
  · exact ⟨_, Part.completes_unmarked b.kind, by rw [record, Record.modPart_bulletin hb]⟩

/-- With a part that is not DONE the record is not retired (R78). -/
theorem State.completeSending_stays
    (open' : p.remaining.less ≠ .times 0 ∨ ∃ q ∈ b.parts, q.line ≠ l ∧ q.state ≠ .done) :
    s.completeSending l i = s.unitSent l i b.kind p.remaining.less := by
  obtain ⟨f, completes, record⟩ := State.unitSent_parts (l := l) hr hb p.remaining.less
  obtain ⟨mem, line⟩ := Record.part?_spec ((State.part?_of_record hr l).symm.trans hp)
  rw [State.completeSending_eq hp hr hb]
  refine State.retireIfDone_stays record (.inr (.inr ?_))
  rw [Record.parts_bulletin rfl]
  rcases open' with more | ⟨q, hq, other, pending⟩
  · refine ⟨f p, List.mem_map.mpr ⟨p, Record.parts_bulletin hb ▸ mem, if_pos line⟩, ?_⟩
    rw [(completes p).2, if_neg more]
    nofun
  · exact ⟨q, List.mem_map.mpr ⟨q, hq, if_neg other⟩, pending⟩

/-- The last part DONE: the pages of an unmarked record return, and it waits in REPORTING (R78). -/
theorem State.completeSending_retires (last : p.remaining.less = .times 0) (unmarked : r.withdrawMark = false)
    (others : ∀ q ∈ b.parts, q = p ∨ (q.line ≠ l ∧ q.state = .done)) :
    (s.completeSending l i).freePages = s.freePages ++ r.pageList ++ r.reserved
      ∧ ∃ r', (s.completeSending l i).record i = some r' ∧ r'.state = .reporting ∧ r'.pageList = []
        ∧ r'.reserved = [] := by
  obtain ⟨f, completes, record⟩ := State.unitSent_parts (l := l) hr hb p.remaining.less
  obtain ⟨mem, line⟩ := Record.part?_spec ((State.part?_of_record hr l).symm.trans hp)
  rw [Record.parts_bulletin hb] at mem
  have retires : s.completeSending l i = (s.unitSent l i b.kind p.remaining.less).endWork i := by
    rw [State.completeSending_eq hp hr hb]
    refine State.retireIfDone_retires record unmarked ?_ ?_
      (State.unitSent_reports .. ▸ (State.addBsent_reports _ i l p.remaining.less).1) rfl
    · rw [Record.parts_bulletin rfl]
      exact fun none => List.ne_nil_of_mem mem (List.map_eq_nil_iff.mp none)
    · rw [Record.parts_bulletin rfl]
      intro q' hq'
      obtain ⟨q, hq, rfl⟩ := List.mem_map.mp hq'
      rcases others q hq with rfl | ⟨other, done⟩
      · rw [if_pos line, (completes q).2, if_pos last]
      · rw [if_neg other, done]
  rw [retires]
  refine ⟨?_, _, State.endWork_record record, rfl, rfl, rfl⟩
  rw [State.endWork_freePages, State.unitSent_freePages, State.pagesOf, record]
  simp

/-- A part with sendings left, not a window part's: QUEUED, its mark clear (R76). -/
theorem State.completeSending_part (more : p.remaining.less ≠ .times 0) (kind : b.kind ≠ .window) :
    (s.completeSending l i).part? i l
      = some { p with remaining := p.remaining.less, state := .queued, formStep := 0, passMark := false } := by
  have found := (State.part?_of_record hr l).symm.trans hp
  rw [State.completeSending_stays hp hr hb (.inl more)]
  rcases State.unitSent_record (l := l) (kind := b.kind) (left := p.remaining.less) hr with ⟨record, -⟩ | ⟨-, window, -⟩
  · rw [State.part?_of_record record, Record.part?_completed (Part.completes _) found]
    simp [Part.completed, more, kind]
  · exact absurd window kind

/-- A window part with sendings left: QUEUED in its place, marked while its window is open (R77, R101). -/
theorem State.completeSending_windowPart (more : p.remaining.less ≠ .times 0) (kind : b.kind = .window)
    (opened : (s.line l).window.state = .isOpen) (queued : i ∈ (s.line l).windowQueue) :
    (s.completeSending l i).part? i l = some { p with
      remaining := p.remaining.less, state := .queued, formStep := 0
      passMark := decide (((s.completeSending l i).line l).window.state = .isOpen) } := by
  have found := (State.part?_of_record hr l).symm.trans hp
  have place : ((s.line l).requeued i b.kind (p.remaining.less = .times 0)).windowQueue = (s.line l).windowQueue := by
    simp [Line.requeued, more, kind]
  rw [State.completeSending_stays hp hr hb (.inl more)]
  rcases State.unitSent_record (l := l) (kind := b.kind) (left := p.remaining.less) hr with ⟨record, state⟩ | ⟨record, -, closed⟩
  · rw [State.part?_of_record record, Record.part?_completed (Part.completes _) found, state kind (place ▸ queued), opened]
    simp [Part.completed, more, kind]
  · rw [State.part?_of_record record, Record.part?_completed (Part.completes_unmarked _) found, closed]
    simp [Part.completed, Part.unmarked, more]

end completed

end Sys2Proof.Machine

namespace Sys2Proof.Machine

variable {l : LineId} {i : Slot} {s : State} {r : Record} {b : Bulletin} {p : Part}

/-! ## An abandoned sending -/

/-- An abandoned sending: its part QUEUED again and unmarked, a free one first in its queue (R80, R81, R119). -/
theorem State.abandonSending_spec (hp : s.part? i l = some p) :
    (s.abandonSending l i).part? i l = some { p with state := .queued, formStep := 0, passMark := false }
      ∧ (s.abandonSending l i).line l = { s.line l with
        freeQueue := if i ∈ (s.line l).freeQueue then i :: (s.line l).freeQueue.erase i else (s.line l).freeQueue }
      ∧ (∀ m, m ≠ l → (s.abandonSending l i).line m = s.line m)
      ∧ (∀ j, j ≠ i → (s.abandonSending l i).record j = s.record j)
      ∧ s.abandonSending l i
        = { s with records := (s.abandonSending l i).records, lines := (s.abandonSending l i).lines } := by
  have part : (s.abandonSending l i).part? i l = (s.modPart i l Part.abandoned).part? i l := rfl
  refine ⟨?_, ?_, fun m hm => State.line_modLine_ne _ _ hm, fun j hj => State.record_modRecord_ne _ _ hj, rfl⟩
  · rw [part, State.part?_modPart (f := Part.abandoned) s i l fun _ => rfl, hp]
    rfl
  · rw [State.abandonSending, State.restartFirst_line]
    simp only [List.contains_iff_mem]
    rfl

/-! ## A part withdrawn -/

theorem Record.withoutPart_bulletin (hb : r.body = .bulletin b) (l : LineId) (cut : Bool) :
    r.withoutPart l cut = { r with body := .bulletin { b with
      parts := b.parts.filter fun q => q.line ≠ l, cutCounted := b.cutCounted || cut } } := by
  simp [Record.withoutPart, Record.dropPart, Record.modBulletin, hb]

/-- The withdrawal finished with the last part (R86): the pages return, every BSENT is discarded, and WITHDRAWN is
pending, cut where a part was counted as cut. -/
theorem State.finishWithdrawal_spec (hr : s.record i = some r) (hb : r.body = .bulletin b) :
    (s.finishWithdrawal i).freePages = s.freePages ++ r.pageList ++ r.reserved
      ∧ (s.finishWithdrawal i).reports
        = s.reports.filter (fun q => !q.isBsent i) ++ [⟨i, .withdrawn b.cutCounted⟩]
      ∧ ∃ r', (s.finishWithdrawal i).record i = some r' ∧ r'.state = .reporting ∧ r'.pageList = []
          ∧ r'.reserved = [] := by
  have cut : (((s.record i).bind Record.bulletin?).map (·.cutCounted)).getD false = b.cutCounted := by
    simp [hr, Record.bulletin?, hb]
  unfold State.finishWithdrawal
  rw [cut]
  refine ⟨(State.endWork_freePages s i).trans (by simp [State.pagesOf, hr]), ?_,
    _, State.endWork_record hr, rfl, rfl, rfl⟩
  show (s.endWork i).reports.filter _ ++ _ = _
  rw [State.endWork_frame]

/-- A part of a marked record leaves its queue and its record (R84); the last one finishes the withdrawal (R85,
R86). -/
theorem State.withdrawPart_spec (cut : Bool) (hr : s.record i = some r) (hb : r.body = .bulletin b)
    (marked : r.withdrawMark = true) :
    ((b.parts.filter fun q => q.line ≠ l) ≠ [] →
        s.withdrawPart i l cut = (s.leaveQueues l i).modRecord i (Record.withoutPart l cut))
      ∧ ((b.parts.filter fun q => q.line ≠ l) = [] →
        s.withdrawPart i l cut = ((s.leaveQueues l i).modRecord i (Record.withoutPart l cut)).finishWithdrawal i) := by
  show (_ → State.finishIfWithdrawn ((s.leaveQueues l i).modRecord i (Record.withoutPart l cut)) i = _)
    ∧ (_ → State.finishIfWithdrawn ((s.leaveQueues l i).modRecord i (Record.withoutPart l cut)) i = _)
  have record : ((s.leaveQueues l i).modRecord i (Record.withoutPart l cut)).record i = some (r.withoutPart l cut) := by
    rw [State.record_modRecord_self, show (s.leaveQueues l i).record i = some r from hr]
    rfl
  have parts : (r.withoutPart l cut).parts = b.parts.filter fun q => q.line ≠ l := by
    rw [Record.withoutPart_bulletin hb, Record.parts_bulletin rfl]
  have mark : (r.withoutPart l cut).withdrawMark = true := by rw [Record.withoutPart_bulletin hb, ← marked]
  unfold State.finishIfWithdrawn
  rw [record]
  exact ⟨fun left => if_neg fun h => left (parts ▸ h.2), fun none => if_pos ⟨mark, parts.trans none⟩⟩

/-! ## The settling stage of a BEND -/

/-- A BEND that ends completes the sending on air (R76). -/
theorem State.settled_bend (he : (s.line l).ended = some .bend) (hi : s.bulletinOnAir l = some i) :
    s.settled l = (s.heeding l).completeSending l i := by
  have same : SameTraffic l s (s.heeding l) :=
    .modLine s (fun _ => rfl) (fun _ => rfl) (fun _ => rfl) (fun _ => rfl) (fun _ => rfl) fun _ => rfl
  have air : (s.heeding l).bulletinOnAir l = some i := same.bulletinOnAir.trans hi
  unfold State.settled State.settle
  rw [he]
  show (match (s.heeding l).bulletinOnAir l with | some i => _ | none => _) = _
  rw [air]
  rfl

end Sys2Proof.Machine

namespace Sys2Proof.Machine

variable {l : LineId} {i : Slot} {s t u : State} {c : Circuit}

/-! ## A withdrawn bulletin waits for its line's boundary -/

/-- The record in a slot is marked, its part on a line is not on air, and no circuit or entry of the line has the
slot: it waits for the removal at the line's boundary (R84). -/
structure State.Waits (s : State) (l : LineId) (i : Slot) : Prop where
  marked : s.isMarked i = true
  entries : ∀ q ∈ (s.line l).cores, i ∉ q.2
  current : ∀ c, (s.line l).circuit = some c → c.current ≠ some i
  air : s.partOnAir l i = false

/-- A marked bulletin whose part on a line is not on air waits, where messages stand in their places. -/
theorem State.waits_of_placed {r : Record} {p : Part} (placed : s.messagesPlaced) (hr : s.record i = some r)
    (marked : r.withdrawMark = true) (hp : s.part? i l = some p) (off : p.state ≠ .onAir) : s.Waits l i := by
  obtain ⟨entries, current, -⟩ := State.messagesPlaced_iff.mp placed
  have bulletin := State.post_of_part hp hr
  have free : ∀ q ∈ (s.line l).cores, i ∉ q.2 := fun q hq hi => by
    obtain ⟨r', hr', post, -⟩ := (entries l q hq).2 i hi
    rw [← Option.some.inj (hr.symm.trans hr'), bulletin] at post
    cases post
  refine ⟨by simp [State.isMarked, hr, marked], free, fun c hc hi => ?_, by simp [State.partOnAir, hp, off]⟩
  obtain ⟨-, -, ms, hms, him⟩ := current l c i hc hi
  exact free _ hms him

/-! ### What keeps the mark of a record -/

theorem Record.withdrawMark_modPart (r : Record) (l : LineId) (f : Part → Part) :
    (r.modPart l f).withdrawMark = r.withdrawMark := by
  unfold Record.modPart Record.modBulletin
  split <;> rfl

theorem State.isMarked_unitEnds (s : State) (l : LineId) (i : Slot) : (s.unitEnds l).isMarked i = s.isMarked i := by
  unfold State.isMarked
  rcases (s.unitEnds_ended l).records with ⟨records, -⟩ | ⟨-, -, records⟩
  · rw [State.record_congr records]
  · rw [records]
    split
    · cases s.record i <;> simp [Record.withdrawMark_modPart]
    · rfl

theorem State.isMarked_unitSent {j : Slot} (h : i ≠ j) (s : State) (l : LineId) (kind : ClassType) (left : Remaining) :
    (s.unitSent l j kind left).isMarked i = s.isMarked i := by
  have sent : (s.sent l j kind left).isMarked i = s.isMarked i := by
    rw [State.isMarked, State.record_congr (s.sent_records l j kind left), State.modPart, State.record_modRecord_ne _ _ h,
      ← State.isMarked]
  unfold State.unitSent
  split
  · exact (State.isMarked_unitEnds _ l i).trans sent
  · exact sent

theorem State.retireIfDone_record_ne (s : State) {j : Slot} (h : i ≠ j) : (s.retireIfDone j).record i = s.record i := by
  unfold State.retireIfDone
  split
  · rfl
  · split
    · rfl
    · rcases (s.endWork j).freeIfSpent_cases j with e | ⟨-, -, -, -, e⟩
      · rw [e, State.endWork_record_ne _ h]
      · rw [e, State.record_setRecord_ne _ _ h, State.endWork_record_ne _ h]

/-- A slot with a part on some line holds a bulletin (R71). -/
theorem State.bulletin_of_part {p : Part} (h : s.part? i l = some p) :
    ∃ r b, s.record i = some r ∧ r.body = .bulletin b := by
  obtain ⟨r, hr, hp⟩ := Option.bind_eq_some_iff.mp h
  cases hb : r.body with
  | bulletin b => exact ⟨r, b, hr, hb⟩
  | telex x => simp [Record.part?, Record.parts, Record.bulletin?, hb] at hp

namespace State.Waits

/-- Easing work that keeps the mark. -/
theorem eases {g : List Slot} (w : s.Waits l i) (h : Eases g s t) (mark : t.isMarked i = s.isMarked i) : t.Waits l i where
  marked := mark.trans w.marked
  entries q hq hi := by
    obtain ⟨q0, h0, -, sub⟩ := (h.lines l).entries q hq
    exact w.entries q0 h0 (sub.subset hi)
  current c hc hi := by
    obtain ⟨c0, h0, -, cur, -⟩ := (h.lines l).circuit c hc
    exact w.current c0 h0 (cur i hi).1
  air := Bool.eq_false_iff.mpr fun on => Bool.eq_false_iff.mp w.air (h.records.partOnAir on)

theorem of_record {g : List Slot} (w : s.Waits l i) (h : Eases g s t) (same : t.record i = s.record i) : t.Waits l i :=
  w.eases h (by rw [State.isMarked, State.isMarked, same])

/-- A circuit that does not have the slot is set. -/
theorem setCircuit (w : s.Waits l i) {d : Option Circuit} (h : ∀ c, d = some c → c.current ≠ some i) :
    (s.setCircuit l d).Waits l i := by
  have line : (s.setCircuit l d).line l = { s.line l with circuit := d } := State.line_modLine_self ..
  refine ⟨w.marked, fun q hq => w.entries q ?_, fun c hc => h c ?_, w.air⟩
  · rwa [line] at hq
  · rwa [line] at hc

/-- The circuit goes on with its current message, or without one. -/
theorem setOn (w : s.Waits l i) (hc : (s.line l).circuit = some c) {d : Circuit}
    (h : d.current = c.current ∨ d.current = none) : (s.setCircuit l (some d)).Waits l i :=
  w.setCircuit fun _ e hi => by
    cases e
    rcases h with e | e <;> rw [e] at hi
    · exact w.current c hc hi
    · cases hi

theorem dropCircuit (w : s.Waits l i) : (s.setCircuit l none).Waits l i := w.setCircuit fun _ => nofun

theorem count (w : s.Waits l i) (f : LineCounters → LineCounters) : (s.modCounters l f).Waits l i :=
  w.of_record (.modCounters s f) rfl

/-! ### Messages and entries -/

theorem finishTelex (w : s.Waits l i) {j : Slot} (h : i ≠ j) (item : ReportItem) : (s.finishTelex j item).Waits l i :=
  w.of_record (.finishTelex s j item)
    ((State.record_congr (State.leaveEntry_frame _ j).1 i).trans (s.endWork_record_ne h))

theorem releaseMessage (w : s.Waits l i) {j : Slot} (h : i ≠ j) : (s.releaseMessage j).Waits l i := by
  refine w.of_record (.releaseMessage s j) ?_
  unfold State.releaseMessage
  split
  · split
    · exact (State.record_congr (State.leaveEntry_frame _ j).1 i).trans (s.endWork_record_ne h)
    · exact s.record_modRecord_ne _ h
  · rfl

theorem endOfMessage (w : s.Waits l i) (j : Slot) : (s.endOfMessage l j).Waits l i := w.of_record (.endOfMessage s j) rfl

theorem endCurrent (w : s.Waits l i) (h : c.current ≠ some i) : (s.endCurrent l c).Waits l i := by
  unfold State.endCurrent
  split
  · exact w
  · next j hj => exact (w.releaseMessage fun e => h (e ▸ hj)).endOfMessage j

/-- Entries of the line that go, or change beside their messages, the circuit being gone. -/
theorem countAttempt (w : s.Waits l i) (idle : (s.line l).circuit = none) (ship : Nat) (reason : Reason) :
    (s.countAttempt l ship reason).Waits l i := by
  unfold State.countAttempt
  split
  · exact w
  · next e he =>
    have freed : (s.freeEntry l ship).Waits l i := w.of_record (.freeEntry s ship idle) rfl
    split
    · have other : i ∉ e.messages := w.entries (e.ship, e.messages)
        (Line.mem_cores.mpr ⟨e, List.mem_of_find?_eq_some he, rfl, rfl⟩)
      exact freed.of_record (.returnMessages _ reason e.messages) (State.returnMessages_record_ne reason _ other _)
    · split
      · exact freed
      · refine w.of_record (Eases.entryToTail s ship ?_ ?_ idle) rfl
        all_goals exact fun _ => rfl

theorem placeCleared (w : s.Waits l i) (idle : (s.line l).circuit = none) (ship : Nat) (failed : Bool) :
    (s.placeCleared l ship failed).Waits l i :=
  w.of_record (.placeCleared s ship failed idle) (State.record_congr (State.placeCleared_frame s l ship failed).1 i)

/-! ### The circuit -/

theorem loseCircuit (w : s.Waits l i) (attempt : Bool) : (s.loseCircuit l attempt).Waits l i := by
  unfold State.loseCircuit
  split
  · exact w
  · next c hc =>
    have ended : (((s.setCircuit l none).modCounters l fun n => { n with circuitsLost := bump n.circuitsLost }
        ).endCurrent l c).Waits l i := (w.dropCircuit.count _).endCurrent (w.current c hc)
    have idle := (Lawful.endCurrent (Eases.dropCounted s fun n => { n with circuitsLost := bump n.circuitsLost }).1 hc
      (Eases.dropCounted s fun n => { n with circuitsLost := bump n.circuitsLost }).2).2
    dsimp only
    split
    · exact ended.countAttempt idle _ _
    · exact ended

theorem completeClear (w : s.Waits l i) (c : Circuit) : (s.completeClear l c).Waits l i := by
  unfold State.completeClear
  dsimp only
  split
  · exact w.dropCircuit.placeCleared (State.setCircuit_circuit ..) _ _
  · obtain ⟨-, gone⟩ := Eases.dropCounted (l := l) s fun n => { n with callsFailed := bump n.callsFailed }
    exact ((w.dropCircuit.count _).countAttempt gone _ _).placeCleared ((State.countAttempt_circuit ..).trans gone) _ _

theorem deliver (w : s.Waits l i) {j : Slot} (h : i ≠ j) (c : Circuit) (clearAfter : Bool) :
    (s.deliver l c j clearAfter).Waits l i := by
  have free : ((s.finishTelex j .delivered).setCircuit l (some { c with current := none })).Waits l i :=
    (w.finishTelex h _).setCircuit fun _ e => by cases e; nofun
  have done : ((((s.finishTelex j .delivered).setCircuit l (some { c with current := none })).modEntry l c.ship
      fun e => { e with attempts := 0 }).endOfMessage l j).Waits l i :=
    State.Waits.endOfMessage
      (free.of_record (.modEntry (f := fun e => { e with attempts := 0 }) _ c.ship (fun _ => rfl) fun _ => rfl) rfl) j
  unfold State.deliver
  dsimp only
  split
  · exact done.setCircuit fun _ e => by cases e; nofun
  · exact done

theorem cutGood (w : s.Waits l i) {j : Slot} (h : i ≠ j) (c : Circuit) : (s.cutGood l c j).Waits l i :=
  State.Waits.endOfMessage ((w.finishTelex h _).setCircuit fun _ e => by cases e; nofun) j

section settled

variable (w : s.Waits l i) (hc : (s.line l).circuit = some c)
include w hc

theorem settleCall (o : Outcome) : (s.settleCall l c o).Waits l i := by
  unfold State.settleCall
  split
  · exact w.setOn hc (.inl rfl)
  · split
    · exact w
    · obtain ⟨-, gone⟩ := Eases.dropCounted (l := l) s fun n => { n with callsFailed := bump n.callsFailed }
      exact (w.dropCircuit.count _).countAttempt gone _ _

theorem settleAlign (o : Outcome) : (s.settleAlign l c o).Waits l i := by
  unfold State.settleAlign
  split
  · exact w.setOn hc (.inl rfl)
  · split
    · exact w.setOn hc (.inl rfl)
    · exact w.setOn hc (.inl rfl)

theorem settleIdent (o : Outcome) : (s.settleIdent l c o).Waits l i := by
  unfold State.settleIdent
  split
  · split
    · exact (w.setOn hc (.inr rfl)).count _
    · exact w.setOn hc (.inl rfl)
  · split
    · exact w
    · exact w.setOn hc (.inl rfl)

theorem notAcknowledged (isBlock : Bool) : (s.notAcknowledged l c isBlock).Waits l i := by
  unfold State.notAcknowledged
  dsimp only
  have counted : (if isBlock then s.modCounters l fun n => { n with repeats := bump n.repeats } else s).Waits l i ∧
      ((if isBlock then s.modCounters l fun n => { n with repeats := bump n.repeats } else s).line l).circuit
        = some c := by
    split
    · exact ⟨w.count _, (State.modCounters_circuit ..).trans hc⟩
    · exact ⟨w, hc⟩
  generalize (if isBlock then s.modCounters l fun n => { n with repeats := bump n.repeats } else s) = v at counted ⊢
  obtain ⟨waits, same⟩ := counted
  split
  · exact waits.setOn same (.inl rfl)
  · split
    · exact waits.setOn same (.inl rfl)
    · refine State.Waits.loseCircuit (waits.setOn same ?_) true
      exact .inl rfl

theorem blockGood {j : Slot} (hj : c.current = some j) : (s.blockGood l c j).Waits l i := by
  have other : i ≠ j := fun e => w.current c hc (e ▸ hj)
  unfold State.blockGood
  split
  · exact w
  · next r _ =>
    have acknowledged : ∀ ack, ((s.modRecord j fun r => r.modTelex fun t => { t with ackCount := ack }
        ).setCircuit l (some c.acknowledged)).Waits l i := fun ack =>
      State.Waits.setOn (w.of_record (.setAckCount s j ack) (s.record_modRecord_ne _ other)) hc (.inl rfl)
    dsimp only
    split
    · exact (acknowledged _).deliver other _ _
    · exact acknowledged _

theorem settleBlock (o : Outcome) : (s.settleBlock l c o).Waits l i := by
  unfold State.settleBlock
  split
  · split
    · exact w.setOn hc (.inl rfl)
    · next j hj =>
      split
      · exact w.cutGood (fun e => w.current c hc (e ▸ hj)) c
      · exact w.blockGood hc hj
  · exact w.notAcknowledged hc true

theorem settleIdle (o : Outcome) : (s.settleIdle l c o).Waits l i := by
  unfold State.settleIdle
  split
  · exact w.setOn hc (.inl rfl)
  · exact w.notAcknowledged hc false

theorem settleRephase (o : Outcome) : (s.settleRephase l c o).Waits l i := by
  unfold State.settleRephase
  split
  · exact w.setOn hc (.inl rfl)
  · split
    · exact w.setOn hc (.inl rfl)
    · exact w.loseCircuit true

theorem settleCircuit (ended : Cycle) (o : Outcome) : (s.settleCircuit l c ended o).Waits l i := by
  unfold State.settleCircuit
  split
  case h_1 => exact w.settleCall hc o
  case h_2 => exact w.settleAlign hc o
  case h_3 => exact w.settleIdent hc o
  case h_4 => exact w.settleBlock hc o
  case h_5 => exact w.settleIdle hc o
  case h_6 =>
    refine w.setOn hc (.inl ?_)
    unfold Circuit.afterRephase
    split <;> rfl
  case h_7 => exact w.settleRephase hc o
  case h_8 =>
    split
    · exact w
    · exact w.completeClear c
  case h_9 => exact w

end settled

/-! ### The settling and the per-boundary work -/

theorem unitEnds (w : s.Waits l i) : (s.unitEnds l).Waits l i := w.eases (.unitEnds s) (s.isMarked_unitEnds l i)

/-- The sending on air is another bulletin's. -/
theorem completeSending (w : s.Waits l i) {j : Slot} (hj : s.bulletinOnAir l = some j) :
    (s.completeSending l j).Waits l i := by
  obtain ⟨listed, air⟩ := State.bulletinOnAir_spec hj
  have other : i ≠ j := fun e => Bool.eq_false_iff.mp w.air (e ▸ air)
  obtain ⟨p, hp, -⟩ := Option.any_eq_true _ _ |>.mp air
  obtain ⟨r, b, hr, hb⟩ := State.bulletin_of_part hp
  refine w.eases (.completeSending s listed) ?_
  rw [State.completeSending_eq hp hr hb, State.isMarked, State.retireIfDone_record_ne _ other, ← State.isMarked]
  exact State.isMarked_unitSent other ..

theorem settle (w : s.Waits l i) (ended : Option Cycle) (o : Option Outcome) : (s.settle l ended o).Waits l i := by
  have taken : (s.modLine l fun x => { x with outcome := none }).Waits l i :=
    w.of_record (.modMode s (fun _ => rfl) (fun _ => rfl) fun _ => rfl) rfl
  unfold State.settle
  dsimp only
  split
  · exact taken
  · split
    · next j hj => exact taken.completeSending hj
    · exact taken
  · unfold State.endNotice
    split
    · exact taken
    · exact State.Waits.unitEnds (taken.of_record (.dropNotice _) rfl)
  · split
    · exact taken
    · next c hc => exact taken.settleCircuit hc _ _

theorem silenceStep (w : s.Waits l i) (ended : Option Cycle) (o : Option Outcome) :
    (s.silenceStep l ended o).Waits l i := by
  unfold State.silenceStep
  split
  · exact w
  · next c hc =>
    split
    · split
      · exact w.setOn hc (.inl rfl)
      · split
        · exact w.setOn hc (.inl rfl)
        · exact w.loseCircuit true
    · exact w

theorem emptiedCheck (w : s.Waits l i) : (s.emptiedCheck l).Waits l i := by
  unfold State.emptiedCheck
  split
  · exact w
  · next c hc =>
    split
    · split
      · exact w.of_record ((Eases.dropCircuit s).then (.freeEntry _ _ (State.setCircuit_circuit _ _ _))) rfl
      · exact w.setOn hc (.inl rfl)
      · exact w.setOn hc (.inl rfl)
      all_goals exact w
    · exact w

theorem decreaseHolds (w : s.Waits l i) (before : List Entry) : (s.decreaseHolds l before).Waits l i :=
  w.of_record (.decreaseHolds s before) rfl

end State.Waits

/-! ## The removal at the boundary -/

/-- The removal of one slot's part leaves a waiting slot waiting, or clears it (R84). -/
theorem State.removeWithdrawn_waits (w : s.Waits l i) (j : Slot) (h : i ≠ j) : (s.removeWithdrawn l j).Waits l i := by
  unfold State.removeWithdrawn
  split
  · next due =>
    obtain ⟨p, hp, -⟩ := Option.any_eq_true _ _ |>.mp (Bool.and_eq_true _ _ |>.mp due).2
    exact w.of_record (.withdrawPart s false fun r hr => State.post_of_part hp hr) (s.withdrawPart_record_ne h l false)
  · exact w

/-- The part of a waiting slot is removed (R84). -/
theorem State.removeWithdrawn_clears (w : s.Waits l i) : (s.removeWithdrawn l i).part? i l = none := by
  unfold State.removeWithdrawn
  cases hp : s.part? i l with
  | none => simpa using hp
  | some p =>
    have off : p.state ≠ .onAir := by simpa [State.partOnAir, hp] using w.air
    obtain ⟨r, -, hr, -⟩ := State.bulletin_of_part hp
    obtain ⟨r', hr', -, gone, -⟩ := State.withdrawPart_record hr l false
    rw [if_pos (by simp [w.marked, off])]
    exact (State.part?_of_record hr' l).trans gone

end Sys2Proof.Machine

namespace Sys2Proof.Machine

variable (s : State)

/-! ## The lines that a record has parts on -/

/-- The lines of the parts of each slot's record. -/
def State.partLines (i : Slot) : List LineId := ((s.record i).map fun r => r.parts.map (·.line)).getD []

theorem State.part?_eq_none_iff {s : State} {i : Slot} {l : LineId} : s.part? i l = none ↔ l ∉ s.partLines i := by
  unfold State.part? State.partLines
  cases s.record i with
  | none => simp
  | some r => simp [Record.part?]

theorem State.partLines_of_records {s t : State} (h : t.records = s.records) : t.partLines = s.partLines :=
  funext fun i => by rw [State.partLines, State.partLines, State.record_congr h]

theorem State.partLines_of_record {s t : State} {i : Slot} (h : t.record i = s.record i) :
    t.partLines i = s.partLines i := by rw [State.partLines, State.partLines, h]

theorem State.partLines_modRecord (i : Slot) {f : Record → Record}
    (h : ∀ r, (f r).parts.map (·.line) = r.parts.map (·.line)) : (s.modRecord i f).partLines = s.partLines := by
  funext j
  by_cases hj : j = i
  · subst hj
    unfold State.partLines
    rw [State.record_modRecord_self]
    cases s.record j <;> simp [h]
  · exact State.partLines_of_record (s.record_modRecord_ne f hj)

/-! ### Work that leaves every record its parts -/

@[simp] theorem State.partLines_modLine (l : LineId) (f : Line → Line) : (s.modLine l f).partLines = s.partLines := rfl
@[simp] theorem State.partLines_modCounters (l : LineId) (f : LineCounters → LineCounters) :
    (s.modCounters l f).partLines = s.partLines := rfl
@[simp] theorem State.partLines_setCircuit (l : LineId) (c : Option Circuit) :
    (s.setCircuit l c).partLines = s.partLines := rfl
@[simp] theorem State.partLines_modWindow (l : LineId) (f : Window → Window) :
    (s.modWindow l f).partLines = s.partLines := rfl
@[simp] theorem State.partLines_modArbiter (l : LineId) (f : Arbiter → Arbiter) :
    (s.modArbiter l f).partLines = s.partLines := rfl
@[simp] theorem State.partLines_modEntry (l : LineId) (ship : Nat) (f : Entry → Entry) :
    (s.modEntry l ship f).partLines = s.partLines := rfl
@[simp] theorem State.partLines_freeEntry (l : LineId) (ship : Nat) : (s.freeEntry l ship).partLines = s.partLines := rfl
@[simp] theorem State.partLines_freeEmptyEntry (l : LineId) (ship : Nat) :
    (s.freeEmptyEntry l ship).partLines = s.partLines := rfl
@[simp] theorem State.partLines_entryToTail (l : LineId) (ship : Nat) (f : Entry → Entry) :
    (s.entryToTail l ship f).partLines = s.partLines := rfl
@[simp] theorem State.partLines_addReport (i : Slot) (item : ReportItem) :
    (s.addReport i item).partLines = s.partLines := rfl
@[simp] theorem State.partLines_dropNotice (l : LineId) : (s.dropNotice l).partLines = s.partLines := rfl

@[simp] theorem State.partLines_modPart (i : Slot) (l : LineId) {f : Part → Part} (h : ∀ q, (f q).line = q.line) :
    (s.modPart i l f).partLines = s.partLines := by
  refine s.partLines_modRecord i fun r => ?_
  rw [Record.parts_modPart, List.map_map]
  refine List.map_congr_left fun q _ => ?_
  by_cases hq : q.line = l <;> simp [hq, h]

@[simp] theorem State.partLines_endWork (i : Slot) : (s.endWork i).partLines = s.partLines := by
  funext j
  by_cases hj : j = i
  · subst hj
    cases hr : s.record j with
    | none =>
      have gone : (s.endWork j).record j = none := by rw [State.endWork, State.returnPages_none hr]; simp [hr]
      rw [State.partLines, State.partLines, gone, hr]
    | some r => rw [State.partLines, State.partLines, State.endWork_record hr, hr]; rfl
  · exact State.partLines_of_record (s.endWork_record_ne hj)

@[simp] theorem State.partLines_finishTelex (i : Slot) (item : ReportItem) :
    (s.finishTelex i item).partLines = s.partLines :=
  (State.partLines_of_records (State.leaveEntry_frame (s.endWork i) i).1).trans (s.partLines_endWork i)

@[simp] theorem State.partLines_returnMessages (reason : Reason) (is : List Slot) :
    ∀ s : State, (s.returnMessages reason is).partLines = s.partLines := by
  induction is with
  | nil => exact fun s => rfl
  | cons i rest ih => exact fun s => (ih _).trans (s.partLines_endWork i)

@[simp] theorem State.partLines_countAttempt (l : LineId) (ship : Nat) (reason : Reason) :
    (s.countAttempt l ship reason).partLines = s.partLines := by
  unfold State.countAttempt
  split
  · rfl
  · split
    · simp
    · split <;> rfl

@[simp] theorem State.partLines_releaseCurrent (c : Circuit) : (s.releaseCurrent c).partLines = s.partLines := by
  unfold State.releaseCurrent State.releaseMessage
  split
  · rfl
  · split
    · split
      · simp
      · exact s.partLines_modRecord _ fun _ => rfl
    · rfl

@[simp] theorem State.partLines_completeClear (l : LineId) (c : Circuit) :
    (s.completeClear l c).partLines = s.partLines := by
  have placed : ∀ (t : State) failed, (t.placeCleared l c.ship failed).partLines = t.partLines := fun t failed =>
    State.partLines_of_records (State.placeCleared_frame t l c.ship failed).1
  unfold State.completeClear
  dsimp only
  split <;> simp [placed]

@[simp] theorem State.partLines_stopCircuit (l : LineId) : (s.stopCircuit l).partLines = s.partLines := by
  unfold State.stopCircuit
  split
  · rfl
  · split <;> simp

@[simp] theorem State.partLines_closeWindow (l : LineId) : (s.closeWindow l).partLines = s.partLines := by
  have fold : ∀ (q : List Slot) (t : State),
      (q.foldl (fun t i => t.modPart i l fun p => { p with passMark := false }) t).partLines = t.partLines := by
    intro q
    induction q with
    | nil => exact fun t => rfl
    | cons i q ih => exact fun t => (ih _).trans (t.partLines_modPart i l fun _ => rfl)
  exact fold _ s

@[simp] theorem State.partLines_unitEnds (l : LineId) : (s.unitEnds l).partLines = s.partLines := by
  unfold State.unitEnds
  split
  · dsimp only
    split
    · rfl
    · simp
  · rfl

@[simp] theorem State.partLines_abandonSending (l : LineId) (i : Slot) : (s.abandonSending l i).partLines = s.partLines :=
  s.partLines_modPart i l (f := Part.abandoned) fun _ => rfl

@[simp] theorem State.partLines_beginSending (l : LineId) (i : Slot) :
    (s.beginSending l i).1.partLines = s.partLines := by
  rw [State.beginSending_fst]
  exact s.partLines_modPart i l (f := Part.begun) fun _ => rfl

@[simp] theorem State.partLines_continueSending (l : LineId) (i : Slot) :
    (s.continueSending l i).1.partLines = s.partLines := by
  unfold State.continueSending
  dsimp only
  split
  · exact s.partLines_modPart i l fun _ => rfl
  · exact s.partLines_modPart i l fun _ => rfl

/-! ### The cycles of a circuit, and the sources up to a cut-in -/

@[simp] theorem State.partLines_countedTurn (l : LineId) (p : State × Cycle) :
    (countedTurn l p).1.partLines = p.1.partLines := rfl

@[simp] theorem State.partLines_handOperation (l : LineId) (c : Circuit) :
    (s.handOperation l c).1.partLines = s.partLines := by
  unfold State.handOperation
  split
  case h_4 => split <;> rfl
  all_goals rfl

@[simp] theorem State.partLines_handIdle (l : LineId) (c : Circuit) : (s.handIdle l c).1.partLines = s.partLines := by
  unfold State.handIdle
  split <;> rfl

@[simp] theorem State.partLines_handTraffic (l : LineId) (c : Circuit) :
    (s.handTraffic l c).1.partLines = s.partLines := by
  have block : ∀ i, (s.handBlock l c i).1.partLines = s.partLines := fun i => by
    unfold State.handBlock
    split
    · rfl
    · refine s.partLines_modRecord i fun r => ?_
      split <;> rfl
  unfold State.handTraffic
  split
  · rfl
  · split
    · exact block _
    · split <;> simp

@[simp] theorem State.partLines_serveFiller (l : LineId) : (s.serveFiller l).1.partLines = s.partLines := by
  unfold State.serveFiller
  dsimp only
  split
  · rfl
  · split <;> rfl

@[simp] theorem State.partLines_serveFree (l : LineId) : (s.serveFree l).1.partLines = s.partLines := by
  unfold State.serveFree
  split <;> simp

@[simp] theorem State.partLines_serveCall (l : LineId) : (s.serveCall l).1.partLines = s.partLines := by
  unfold State.serveCall
  split
  · rfl
  · simp

@[simp] theorem State.partLines_serveTraffic (l : LineId) : (s.serveTraffic l).1.partLines = s.partLines := by
  unfold State.serveTraffic
  split
  · split <;> simp
  · simp

@[simp] theorem State.partLines_beginUnit (l : LineId) (a : WindowAnswer) :
    (s.beginUnit l a).1.partLines = s.partLines := by
  cases a with
  | part i => exact s.partLines_beginSending l i
  | notice => rfl
  | nothing => exact s.partLines_serveTraffic l

@[simp] theorem State.partLines_readTable (l : LineId) (c : Circuit) : (s.readTable l c).1.partLines = s.partLines := by
  unfold State.readTable
  dsimp only
  split
  · simp
  · split
    · simp
    · split
      · rfl
      · simp

@[simp] theorem State.partLines_askWithoutCircuit (l : LineId) : (s.askWithoutCircuit l).1.partLines = s.partLines := by
  unfold State.askWithoutCircuit
  dsimp only
  split <;> simp

@[simp] theorem State.partLines_unitOfTurn (l : LineId) : (s.unitOfTurn l).1.partLines = s.partLines := by
  unfold State.unitOfTurn
  split <;> simp

@[simp] theorem State.partLines_unitBoundary (l : LineId) (c : Circuit) :
    (s.unitBoundary l c).1.partLines = s.partLines := by
  unfold State.unitBoundary
  split
  · simp
  · split
    · rfl
    · simp

@[simp] theorem State.partLines_serveWindow (l : LineId) : (s.serveWindow l).1.partLines = s.partLines := by
  unfold State.serveWindow
  dsimp only
  split
  · split
    · simp
    · split <;> simp
    · split
      · simp
      · split <;> simp
  · simp

@[simp] theorem State.partLines_serveUnit (l : LineId) : (s.serveUnit l).1.partLines = s.partLines := by
  unfold State.serveUnit
  split
  · simp
  · split
    · simp
    · rfl

@[simp] theorem State.partLines_prepareCutIn (l : LineId) (i : Slot) :
    (s.prepareCutIn l i).1.partLines = s.partLines := by
  unfold State.prepareCutIn
  dsimp only
  split
  · simp
  · split
    · simp
    · split
      case h_2 => split <;> [rfl; simp]
      all_goals simp

@[simp] theorem State.partLines_serveCutIn (l : LineId) : (s.serveCutIn l).1.partLines = s.partLines := by
  unfold State.serveCutIn
  split
  · simp
  · split <;> simp

/-! ### Work that may take a part from a record -/

/-- No record has got a part on a new line. -/
def PartsWithin (s t : State) : Prop := ∀ i, t.partLines i ⊆ s.partLines i

theorem PartsWithin.refl (s : State) : PartsWithin s s := fun _ => List.Subset.refl _

theorem PartsWithin.trans {s t u : State} (h1 : PartsWithin s t) (h2 : PartsWithin t u) : PartsWithin s u :=
  fun i => List.Subset.trans (h2 i) (h1 i)

theorem PartsWithin.of_eq {s t : State} (h : t.partLines = s.partLines) : PartsWithin s t :=
  fun _ => h ▸ List.Subset.refl _

/-- A slot without a part on a line is left without it. -/
theorem PartsWithin.part?_none {s t : State} {i : Slot} {l : LineId} (h : PartsWithin s t) (hp : s.part? i l = none) :
    t.part? i l = none :=
  State.part?_eq_none_iff.mpr fun mem => State.part?_eq_none_iff.mp hp (h i mem)

theorem PartsWithin.withdrawPart (i : Slot) (l : LineId) (cut : Bool) : PartsWithin s (s.withdrawPart i l cut) := by
  have dropped : PartsWithin s ((s.leaveQueues l i).modRecord i (Record.withoutPart l cut)) := fun j => by
    by_cases hj : j = i
    · subst hj
      unfold State.partLines
      rw [State.record_modRecord_self, show (s.leaveQueues l j).record j = s.record j from rfl]
      cases s.record j with
      | none => exact List.Subset.refl _
      | some r =>
        simp only [Option.map_some, Option.getD_some, Record.withoutPart, Record.parts_countCut, Record.parts_dropPart]
        exact List.map_subset _ List.filter_sublist.subset
    · exact (State.partLines_of_record (s := s) (State.record_modRecord_ne (s.leaveQueues l i) _ hj)) ▸ List.Subset.refl _
  rcases s.withdrawPart_cases i l cut with e | e
  · rw [e]; exact dropped
  · rw [e]; exact dropped.trans (.of_eq (State.partLines_endWork _ i))

theorem PartsWithin.removeWithdrawn (l : LineId) (i : Slot) : PartsWithin s (s.removeWithdrawn l i) :=
  iteInduction (fun _ => .withdrawPart s i l false) fun _ => .refl s

theorem PartsWithin.bulletinStopped (l : LineId) : PartsWithin s (s.bulletinStopped l) := by
  unfold State.bulletinStopped
  split
  · next i _ =>
    exact iteInduction (fun _ => .withdrawPart s i l true) fun _ => .of_eq (s.partLines_abandonSending l i)
  · exact .refl s

theorem PartsWithin.stopKeying (l : LineId) (m : Mode) : PartsWithin s (s.stopKeying l m) := by
  rw [State.stopKeying_eq]
  exact (PartsWithin.bulletinStopped s l).trans (.of_eq (by simp))

theorem PartsWithin.silenceCheck (l : LineId) : PartsWithin s (s.silenceCheck l) := by
  have stop : PartsWithin s (if s.silencedLine l then s.stopKeying l .silent else s) :=
    iteInduction (fun _ => .stopKeying s l _) fun _ => .refl s
  unfold State.silenceCheck
  split
  case h_5 => exact iteInduction (fun _ => .refl s) fun _ => .of_eq rfl
  case h_6 | h_7 => exact .refl s
  all_goals exact stop

theorem PartsWithin.actOrder (l : LineId) (order : LineOrder) : PartsWithin s (s.actOrder l order).1 := by
  cases order with
  | stop =>
    simp only [State.actOrder]
    split
    case h_6 | h_7 => exact .refl s
    all_goals exact .stopKeying s l _
  | start => exact iteInduction (motive := PartsWithin s) (fun _ => .of_eq rfl) fun _ => .refl s
  | patternOn =>
    simp only [State.actOrder]
    split
    · exact .of_eq rfl
    · exact .refl s
  | patternOff => exact iteInduction (motive := PartsWithin s) (fun _ => .of_eq rfl) fun _ => .refl s

theorem PartsWithin.modeStep (l : LineId) : PartsWithin s (s.modeStep l).1 := by
  have order : ∀ v : State, PartsWithin v (v.orderStep l).1 := fun v => by
    unfold State.orderStep
    split
    · exact .refl v
    · exact PartsWithin.trans (t := v.modLine l fun x => { x with held := none }) (.of_eq rfl) (.actOrder _ l _)
  have keying : ∀ v : State, PartsWithin v (v.keyingCheck l) := fun v =>
    iteInduction (fun _ => .of_eq rfl) fun _ => .refl v
  exact ((PartsWithin.silenceCheck s l).trans (order _)).trans (keying _)

theorem PartsWithin.serveCut (l : LineId) : PartsWithin s (s.serveCut l).1 := by
  unfold State.serveCut
  split
  · exact .of_eq rfl
  · split
    · next i _ =>
      unfold State.breakSending
      dsimp only
      split
      · exact (PartsWithin.withdrawPart s i l true).trans (.of_eq (by simp))
      · exact .withdrawPart s i l true
    · exact .of_eq (by simp)

theorem PartsWithin.serveOperation (l : LineId) : PartsWithin s (s.serveOperation l).1 := by
  unfold State.serveOperation
  split
  · exact .of_eq (by simp)
  · exact iteInduction (motive := fun p : State × Cycle => PartsWithin s p.1) (fun _ => .of_eq rfl) fun _ => .serveCut s l

theorem PartsWithin.chooseCycle (l : LineId) : PartsWithin s (s.chooseCycle l).1 := by
  obtain ⟨f, tests⟩ := s.endTests_eq l
  have served : PartsWithin s ((s.endTests l).serveOperation l).1 := by
    rw [tests]
    exact PartsWithin.trans (t := s.modArbiter l f) (.of_eq rfl) (.serveOperation _ l)
  unfold State.chooseCycle
  dsimp only
  split
  · exact served
  · exact served

theorem PartsWithin.choice (l : LineId) : PartsWithin s (s.choice l).1 := by
  unfold State.choice
  split
  case h_7 => exact .chooseCycle s l
  case h_6 => exact iteInduction (motive := fun p : State × Cycle => PartsWithin s p.1) (fun _ => .of_eq rfl) fun _ => .refl s
  all_goals exact .of_eq rfl

theorem PartsWithin.handReport : PartsWithin s s.handReport := by
  have freed : ∀ (t : State) i, t.records = s.records → PartsWithin s (t.freeIfSpent i) := fun t i h => by
    have same : PartsWithin s t := .of_eq (State.partLines_of_records h)
    rcases t.freeIfSpent_cases i with e | ⟨-, -, -, -, e⟩
    · rw [e]; exact same
    · rw [e]
      refine same.trans fun j => ?_
      by_cases hj : j = i
      · subst hj; simp [State.partLines]
      · exact (State.partLines_of_record (t.record_setRecord_ne none hj)) ▸ List.Subset.refl _
  unfold State.handReport
  split
  · exact .refl s
  · split
    · split
      · exact .of_eq rfl
      · exact freed _ _ rfl
    · exact .refl s

/-- The work of a boundary after its per-boundary work gives no record a new part. -/
theorem PartsWithin.boundary (l : LineId) : PartsWithin (s.worked l) (s.boundary l) := by
  have stepped : PartsWithin (s.worked l) (s.chosen l).1 := by
    rw [State.chosen_eq, State.stepped_eq]
    exact (PartsWithin.modeStep _ l).trans (.choice _ l)
  have handed : PartsWithin (s.chosen l).1 (s.chosen l).1.handReports :=
    State.handReports_keeps (P := PartsWithin (s.chosen l).1) (fun t h => h.trans (.handReport t)) _ (.refl _)
  rw [State.boundary_eq]
  exact (stepped.trans handed).trans (.of_eq (State.partLines_of_records (State.finish_records ..)))

/-! ## The removal at the boundary, and what follows it -/

/-- The removal of every withdrawn part of a line takes in the waiting slot (R84). -/
theorem State.removeAll_clears {l : LineId} {i : Slot} (js : List Slot) : ∀ s : State, i ∈ js → s.Waits l i →
    (js.foldl (fun t j => t.removeWithdrawn l j) s).part? i l = none := by
  have after : ∀ (js : List Slot) (t : State), PartsWithin t (js.foldl (fun t j => t.removeWithdrawn l j) t) := by
    intro js
    induction js with
    | nil => exact fun t => .refl t
    | cons j js ih => exact fun t => (PartsWithin.removeWithdrawn t l j).trans (ih _)
  induction js with
  | nil => exact fun s h => absurd h List.not_mem_nil
  | cons j js ih =>
    intro s mem w
    by_cases h : i = j
    · subst h
      exact (after js _).part?_none (State.removeWithdrawn_clears w)
    · exact ih _ ((List.mem_cons.mp mem).resolve_left h) (State.removeWithdrawn_waits w j h)

@[simp] theorem State.partLines_openPending (l : LineId) : (s.openPending l).partLines = s.partLines := by
  unfold State.openPending
  split
  · split <;> rfl
  · rfl

/-- The per-boundary work takes the part of a waiting slot from its record (R84). -/
theorem State.perBoundary_removes {l : LineId} {i : Slot} (w : s.Waits l i) (before : List Entry)
    (ended : Option Cycle) (o : Option Outcome) : (s.perBoundary l before ended o).part? i l = none := by
  have ready := ((w.decreaseHolds before).silenceStep ended o).emptiedCheck
  unfold State.perBoundary
  generalize ((s.decreaseHolds l before).silenceStep l ended o).emptiedCheck l = v at ready ⊢
  have removed : (v.removeAllWithdrawn l).part? i l = none := State.removeAll_clears slots v (List.mem_finRange i) ready
  refine PartsWithin.part?_none (s := v.removeAllWithdrawn l) (.of_eq ?_) removed
  rw [State.partLines_openPending]
  exact State.partLines_modWindow _ l _

/-- A waiting slot has no part on the line at the end of the line's boundary (R84). -/
theorem State.boundary_removes {l : LineId} {i : Slot} (w : s.Waits l i) : (s.boundary l).part? i l = none := by
  refine (PartsWithin.boundary s l).part?_none ?_
  unfold State.worked State.settled
  exact State.perBoundary_removes _ (w.settle _ _) _ _ _

end Sys2Proof.Machine

namespace Sys2Proof.Machine

/-- Settles O36: the form's cycles, the completion at a BEND, abandonment, the removal at a boundary, and the end
of a withdrawal, each from its own rule. -/
theorem onAirFormCarriesText : Obligations.OnAirFormCarriesText := by
  refine ⟨fun s r => ?form, fun l s i r b p he hi hr hb hp => ?completed, fun l s i p hp => State.abandonSending_spec hp,
    fun l s settled placed => ⟨_, exec_boundary s l settled, fun i r p hr marked hp off =>
      State.boundary_removes s (State.waits_of_placed placed hr marked hp off)⟩,
    fun l s i r b cut hr hb marked => ?withdrawn⟩
  case form =>
    intro m chars
    refine ⟨fun b hb => ?_, fun step text last => ⟨_, s.formCycle_text r text last, s.length_readChars r _ _⟩,
      s.formCycle_end r, s.formCycle_carries r (chars := chars) fun _ => rfl⟩
    have cls : (r.bulletin?.map (·.cls)).getD 0 = b.cls := by simp [Record.bulletin?, hb]
    rw [s.formCycle_head r (by decide), s.formCycle_head r (by decide), cls]
    exact ⟨rfl, rfl⟩
  case completed =>
    intro x u y left
    have hu : u = (s.heeding l).completeSending l i := State.settled_bend he hi
    have hleft : left = p.remaining.less := rfl
    clear_value left u
    subst hleft hu
    have hr' : (s.heeding l).record i = some r := hr
    have hp' : (s.heeding l).part? i l = some p := hp
    have heard := s.heeding_line l
    obtain ⟨window, arbiter, line⟩ := State.completeSending_line hp' hr' hb
    obtain ⟨told, once⟩ := State.completeSending_bsent hp' hr' hb
    rw [heard] at line
    have hy : y = _ := line
    refine ⟨by rw [hy], told, once, fun more => ⟨State.completeSending_part hp' hr' hb more,
      fun kind opened queued => ⟨?_, ?_⟩, fun kind => ?_, fun kind => ?_⟩, fun last => ?_,
      State.completeSending_retires hp' hr' hb, fun pending => ?_⟩
    · simp [hy, Line.requeued, more, kind, x]
    · exact State.completeSending_windowPart hp' hr' hb more kind (heard ▸ opened) (heard ▸ queued)
    · simp [hy, Line.requeued, more, kind, x]
    · simp [hy, Line.requeued, more, kind, x]
    · simp [hy, Line.requeued, last, Line.without, x]
    · obtain ⟨f, -, record⟩ := State.unitSent_parts (l := l) hr' hb p.remaining.less
      rw [State.completeSending_stays hp' hr' hb (.inr pending)]
      exact ⟨State.unitSent_freePages .., _, record, rfl, rfl⟩
  case withdrawn =>
    obtain ⟨more, last⟩ := State.withdrawPart_spec (l := l) cut hr hb marked
    have record : ((s.leaveQueues l i).modRecord i (Record.withoutPart l cut)).record i
        = some { r with body := .bulletin { b with
          parts := b.parts.filter fun q => q.line ≠ l, cutCounted := b.cutCounted || cut } } := by
      rw [State.record_modRecord_self, show (s.leaveQueues l i).record i = some r from hr, Option.map_some,
        Record.withoutPart_bulletin hb]
    refine ⟨(s.withdrawPart_line i l cut).trans (s.leaveQueues_line l i),
      fun j hj => s.withdrawPart_record_ne hj l cut, fun left => ?_, fun none => ?_⟩
    · rw [more left]
      exact ⟨rfl, rfl, record⟩
    · rw [last none]
      exact State.finishWithdrawal_spec record rfl

end Sys2Proof.Machine

namespace Sys2Proof.Machine

/-! ## Window times that fall due -/

/-- A window time falls due where its minute passed and its mark is clear (R89, R92). -/
theorem State.fallsDue_iff (s : State) (due : Nat → Bool) (l : LineId) (i : Fin 8) :
    s.fallsDue due l i = true ↔ due (s.lineConfig l).windowTimes[i] = true ∧ s.marks[l][i] = false := by
  simp [State.fallsDue]

theorem minutesAfter_iff (a b t : Nat) : minutesAfter a b t = true ↔ a < t ∧ t ≤ b := by
  simp [minutesAfter]

@[simp] theorem State.clearMarks_mark (s : State) (l : LineId) (i : Fin 8) :
    s.clearMarks.marks[l][i] = false := by
  simp [State.clearMarks]

/-- The mark of a time is set where it falls due, and is else as it was (R89, R90). -/
theorem State.setMarks_mark (s : State) (due : Nat → Bool) (l : LineId) (i : Fin 8) :
    (s.fallsDue due l i = true → (s.setMarks due).marks[l][i] = true)
      ∧ (¬ s.fallsDue due l i = true → (s.setMarks due).marks[l][i] = s.marks[l][i]) := by
  have mark : (s.setMarks due).marks[l][i] = (s.marks[l][i] || s.fallsDue due l i) := by
    simp only [State.setMarks, vecOf_get]
  rw [mark]
  cases s.fallsDue due l i <;> simp

/-- Openings leave the marks. -/
theorem State.handOpenings_marks (s : State) (ls : List LineId) : (s.handOpenings ls).marks = s.marks := by
  rw [s.handOpenings_frame ls]

/-- A line takes one opening where one of its times is due, and else none (R93). -/
theorem State.handOpenings_due (s : State) {ls : List LineId} {l : LineId} {due : Fin 8 → Prop}
    (named : ls.contains l = true ↔ ∃ i, due i) :
    ((∃ i, due i) → (s.handOpenings ls).line l = (s.line l).opened)
      ∧ ((∀ i, ¬ due i) → (s.handOpenings ls).line l = s.line l) := by
  rw [s.handOpenings_line ls l]
  exact ⟨fun h => if_pos (named.mpr h), fun h => if_neg fun hc => not_exists.mpr h (named.mp hc)⟩

/-- The due work of minutes that pass: the marks of the times falling due, and the openings (R89, R93). -/
def State.passMinutes (s : State) (due : Nat → Bool) : State :=
  (s.setMarks due).handOpenings (s.dueLines due)

theorem State.passMinutes_mark (s : State) (due : Nat → Bool) (l : LineId) (i : Fin 8) :
    (s.fallsDue due l i = true → (s.passMinutes due).marks[l][i] = true)
      ∧ (¬ s.fallsDue due l i = true → (s.passMinutes due).marks[l][i] = s.marks[l][i]) := by
  rw [State.passMinutes, State.handOpenings_marks]
  exact s.setMarks_mark due l i

theorem State.passMinutes_line (s : State) (due : Nat → Bool) (l : LineId) :
    ((∃ i, s.fallsDue due l i = true) → (s.passMinutes due).line l = (s.line l).opened)
      ∧ ((∀ i, ¬ s.fallsDue due l i = true) → (s.passMinutes due).line l = s.line l) :=
  (s.setMarks due).handOpenings_due (s.mem_dueLines due l)

theorem State.passMinutes_frame (s : State) (due : Nat → Bool) :
    s.passMinutes due = { s with marks := (s.passMinutes due).marks, lines := (s.passMinutes due).lines } := by
  unfold State.passMinutes
  rw [(s.setMarks due).handOpenings_frame]
  rfl

/-! ## The minute advances -/

/-- The first two steps of R89: the minute becomes the next, and a minute 0 clears every mark. -/
def State.nextMinute (s : State) : State :=
  { s with
    minute := s.minute + 1
    marks := if s.minute + 1 = 0 then Vector.replicate 4 (Vector.replicate 8 false) else s.marks }

theorem State.nextMinute_minute (s : State) : s.nextMinute.minute.val = (s.minute.val + 1) % 1440 :=
  Fin.val_add s.minute 1

theorem State.nextMinute_mark (s : State) (l : LineId) (i : Fin 8) :
    s.nextMinute.marks[l][i] = if (s.minute.val + 1) % 1440 = 0 then false else s.marks[l][i] := by
  have zero : s.minute + 1 = 0 ↔ (s.minute.val + 1) % 1440 = 0 := by
    rw [← s.nextMinute_minute]
    exact Fin.ext_iff
  unfold State.nextMinute
  by_cases h : s.minute + 1 = 0
  · simp [h, zero.mp h]
  · simp only [h, if_false, mt zero.mpr h]

/-- While time-valid the times of the new minute fall due, after the minute and the marks (R89). -/
theorem State.advanceMinute_eq (s : State) :
    s.advanceMinute = if s.timeValid then s.nextMinute.passMinutes fun t => decide (t = s.nextMinute.minute.val)
      else s.nextMinute := by
  have cleared : (if s.minute + 1 = 0 then { s with minute := s.minute + 1 }.clearMarks
      else { s with minute := s.minute + 1 }) = s.nextMinute := by
    unfold State.nextMinute
    split <;> rfl
  unfold State.advanceMinute
  dsimp only
  rw [cleared]
  rfl

/-- Whether a window time falls due at the minute's advance: it is the new minute's, with a clear mark, while
time-valid (R89). -/
def State.dueAtAdvance (s : State) (l : LineId) (i : Fin 8) : Prop :=
  s.timeValid = true ∧ (s.lineConfig l).windowTimes[i] = (s.minute.val + 1) % 1440
    ∧ (if (s.minute.val + 1) % 1440 = 0 then false else s.marks[l][i]) = false

/-- The due check of R89 is made against the new minute and the marks kept. -/
theorem State.dueAtAdvance_iff {s : State} (valid : s.timeValid = true) (l : LineId) (i : Fin 8) :
    s.nextMinute.fallsDue (fun t => decide (t = s.nextMinute.minute.val)) l i = true ↔ s.dueAtAdvance l i := by
  have same : s.nextMinute.lineConfig l = s.lineConfig l := rfl
  rw [State.fallsDue_iff, decide_eq_true_iff, same, s.nextMinute_minute, s.nextMinute_mark]
  exact (and_iff_right valid).symm

theorem State.advanceMinute_mark (s : State) (l : LineId) (i : Fin 8) :
    (s.dueAtAdvance l i → s.advanceMinute.marks[l][i] = true)
      ∧ (¬ s.dueAtAdvance l i → s.advanceMinute.marks[l][i]
        = if (s.minute.val + 1) % 1440 = 0 then false else s.marks[l][i]) := by
  rw [s.advanceMinute_eq, ← s.nextMinute_mark]
  by_cases valid : s.timeValid = true
  · rw [if_pos valid, ← State.dueAtAdvance_iff valid]
    exact State.passMinutes_mark ..
  · rw [if_neg valid]
    exact ⟨fun due => absurd due.1 valid, fun _ => rfl⟩

theorem State.advanceMinute_line (s : State) (l : LineId) :
    ((∃ i, s.dueAtAdvance l i) → s.advanceMinute.line l = (s.line l).opened)
      ∧ ((∀ i, ¬ s.dueAtAdvance l i) → s.advanceMinute.line l = s.line l) := by
  rw [s.advanceMinute_eq]
  by_cases valid : s.timeValid = true
  · simp only [if_pos valid, ← State.dueAtAdvance_iff valid]
    exact State.passMinutes_line ..
  · rw [if_neg valid]
    exact ⟨fun ⟨_, due⟩ => absurd due.1 valid, fun _ => rfl⟩

/-- The due check leaves the minute that the advance has set. -/
theorem State.advanceMinute_minute (s : State) : s.advanceMinute.minute.val = (s.minute.val + 1) % 1440 := by
  rw [s.advanceMinute_eq, ← s.nextMinute_minute]
  split
  · rw [State.passMinutes_frame]
  · rfl

/-- The minute's advance touches the minute, the marks and the lines. -/
theorem State.advanceMinute_frame (s : State) :
    s.advanceMinute = { s with
      minute := s.advanceMinute.minute, marks := s.advanceMinute.marks, lines := s.advanceMinute.lines } := by
  rw [s.advanceMinute_eq]
  split
  · rw [State.passMinutes_frame]
    rfl
  · rfl

/-! ## The second timer -/

theorem exec_secondTimerExpiry {s : State} (settled : s.phase = .settled) :
    exec .secondTimerExpiry s = .next s.secondPasses :=
  congrArg Host.Outcome.next (if_pos settled)

/-- Settles O20: below 59 a second is counted; from 59 the second is 0 and the minute advances. -/
theorem secondTimerCounts : Obligations.SecondTimerCounts := by
  intro s settled new kept due
  refine ⟨fun below => ⟨_, exec_secondTimerExpiry settled, ?counted⟩,
    fun last => ⟨_, exec_secondTimerExpiry settled, ?advanced⟩⟩
  case counted =>
    have counts : s.secondPasses = { s with second := s.second + 1 } :=
      if_neg fun last => by simp [last] at below
    have next : (s.second + 1).val = s.second.val + 1 := by
      rw [Fin.val_add]
      exact Nat.mod_eq_of_lt (by simpa using Nat.succ_lt_succ below)
    rw [counts]
    exact ⟨next, rfl⟩
  case advanced =>
    have advances : s.secondPasses = { s with second := 0 }.advanceMinute := if_pos last
    rw [advances]
    have frame := State.advanceMinute_frame { s with second := 0 }
    have second : { s with second := 0 }.advanceMinute.second = 0 := congrArg State.second frame
    refine ⟨second, State.advanceMinute_minute _, State.advanceMinute_mark { s with second := 0 },
      State.advanceMinute_line { s with second := 0 }, ?_⟩
    rw [second]
    exact frame

/-! ## The clock is set -/

/-- A TIME taken goes to the clock (R91). -/
theorem exec_time {h : Header} {s : State} (taken : s.reception .time h h.source true = .taken)
    (minute : Fin 2048) (second : Fin 64) :
    exec (.time h minute second) s = .next (s.setClock minute.val second.val) :=
  congrArg Host.Outcome.next (State.receive_taken taken _)

theorem State.setClock_outOfRange (s : State) {minute second : Nat} (out : 1440 ≤ minute ∨ 60 ≤ second) :
    s.setClock minute second = s :=
  dif_neg (by omega)

/-- A time in range is set; the due work is done before it where time-valid was true (R91, R92). -/
theorem State.setClock_inRange (s : State) {minute second : Nat} (hm : minute < 1440) (hs : second < 60) :
    s.setClock minute second = { (if s.timeValid then s.dueWork minute else s) with
      minute := ⟨minute, hm⟩, second := ⟨second, hs⟩, timeValid := true } :=
  dif_pos ⟨hm, hs⟩

/-- Settles O21: a time out of range is ignored, and the first one in range is set without due work. -/
theorem firstTimeSetsClock : Obligations.FirstTimeSetsClock := by
  intro h minute second s taken
  rw [exec_time taken]
  refine ⟨fun out => congrArg _ (s.setClock_outOfRange out), fun hm hs first => ⟨_, rfl, ?_⟩⟩
  have set : s.setClock minute.val second.val
      = { s with minute := ⟨minute.val, hm⟩, second := ⟨second.val, hs⟩, timeValid := true } := by
    rw [s.setClock_inRange hm hs]
    simp only [first, Bool.false_eq_true, if_false]
  rw [set]
  exact ⟨rfl, rfl, rfl, rfl⟩

/-! ## The three cases of a set -/

/-- A set backward by more than 10 minutes is taken as one across midnight (R92). -/
def State.setsAcross (s : State) (new : Nat) : Prop := new < s.minute.val ∧ 10 < s.minute.val - new

/-- The marks and openings of a set across midnight: the times up to midnight with a clear mark, then, all marks
cleared, the times from midnight on (R92). -/
def State.passMidnight (s : State) (new : Nat) : State :=
  (s.clearMarks.setMarks fun t => decide (t ≤ new)).handOpenings
    (s.dueLines (minutesAfter s.minute.val 1439) ++ s.clearMarks.dueLines fun t => decide (t ≤ new))

/-- The three cases of R92: a forward set, one backward by at most 10 minutes, and one across midnight. -/
theorem State.dueWork_cases (s : State) (new : Nat) :
    (s.minute.val ≤ new ∧ s.dueWork new = s.passMinutes (minutesAfter s.minute.val new))
      ∨ (new < s.minute.val ∧ s.minute.val - new ≤ 10 ∧ s.dueWork new = s)
      ∨ (s.setsAcross new ∧ s.dueWork new = s.passMidnight new) := by
  unfold State.dueWork
  by_cases forward : s.minute.val ≤ new
  · exact .inl ⟨forward, if_pos forward⟩
  · have below := Nat.lt_of_not_le forward
    by_cases near : s.minute.val - new ≤ 10
    · exact .inr (.inl ⟨below, near, (if_neg forward).trans (if_pos near)⟩)
    · exact .inr (.inr ⟨⟨below, Nat.lt_of_not_le near⟩, (if_neg forward).trans (if_neg near)⟩)

/-- Whether a window time falls due at a set to the minute `new` (R92). -/
def State.dueAtSet (s : State) (new : Nat) (l : LineId) (i : Fin 8) : Prop :=
  let time := (s.lineConfig l).windowTimes[i]
  (s.minute.val ≤ new ∧ s.minute.val < time ∧ time ≤ new ∧ s.marks[l][i] = false)
    ∨ (s.setsAcross new ∧ ((s.minute.val < time ∧ time ≤ 1439 ∧ s.marks[l][i] = false) ∨ time ≤ new))

theorem State.dueAtSet_forward {s : State} {new : Nat} (forward : s.minute.val ≤ new) (l : LineId) (i : Fin 8) :
    s.fallsDue (minutesAfter s.minute.val new) l i = true ↔ s.dueAtSet new l i := by
  have notAcross : ¬ s.setsAcross new := fun across => Nat.not_lt.mpr forward across.1
  simp only [State.fallsDue_iff, minutesAfter_iff, State.dueAtSet, forward, notAcross, true_and, false_and,
    or_false, and_assoc]

/-- Backward by at most 10 minutes, nothing falls due (R92). -/
theorem State.not_dueAtSet_near {s : State} {new : Nat} (below : new < s.minute.val)
    (near : s.minute.val - new ≤ 10) (l : LineId) (i : Fin 8) : ¬ s.dueAtSet new l i := by
  rintro (⟨forward, -⟩ | ⟨⟨-, far⟩, -⟩) <;> omega

/-- Across midnight, a time falls due before it or after it (R92). -/
theorem State.dueAtSet_across {s : State} {new : Nat} (across : s.setsAcross new) (l : LineId) (i : Fin 8) :
    s.dueAtSet new l i ↔ s.fallsDue (minutesAfter s.minute.val 1439) l i = true
      ∨ s.clearMarks.fallsDue (fun t => decide (t ≤ new)) l i = true := by
  have notForward : ¬ s.minute.val ≤ new := Nat.not_le.mpr across.1
  have same : s.clearMarks.lineConfig l = s.lineConfig l := rfl
  simp only [State.fallsDue_iff, minutesAfter_iff, State.dueAtSet, notForward, across, same,
    State.clearMarks_mark, decide_eq_true_iff, true_and, false_and, false_or, and_true, and_assoc]

/-- After a set across midnight the marks of the times from midnight on are set, and no others. -/
theorem State.passMidnight_mark (s : State) (new : Nat) (l : LineId) (i : Fin 8) :
    (s.passMidnight new).marks[l][i] = decide ((s.lineConfig l).windowTimes[i] ≤ new) := by
  rw [State.passMidnight, State.handOpenings_marks]
  obtain ⟨due, notDue⟩ := s.clearMarks.setMarks_mark (fun t => decide (t ≤ new)) l i
  rw [State.fallsDue_iff, State.clearMarks_mark, decide_eq_true_iff, and_iff_left rfl] at due notDue
  by_cases le : (s.lineConfig l).windowTimes[i] ≤ new
  · exact (due le).trans (decide_eq_true le).symm
  · exact (notDue le).trans (decide_eq_false le).symm

theorem State.dueWork_mark (s : State) (new : Nat) (l : LineId) (i : Fin 8) :
    (¬ s.setsAcross new → (s.dueAtSet new l i → (s.dueWork new).marks[l][i] = true)
        ∧ (¬ s.dueAtSet new l i → (s.dueWork new).marks[l][i] = s.marks[l][i]))
      ∧ (s.setsAcross new →
        (s.dueWork new).marks[l][i] = decide ((s.lineConfig l).windowTimes[i] ≤ new)) := by
  rcases s.dueWork_cases new with ⟨forward, work⟩ | ⟨below, near, work⟩ | ⟨across, work⟩ <;> rw [work]
  · rw [← State.dueAtSet_forward forward]
    exact ⟨fun _ => s.passMinutes_mark _ l i, fun across => absurd across.1 (Nat.not_lt.mpr forward)⟩
  · exact ⟨fun _ => ⟨fun due => absurd due (State.not_dueAtSet_near below near l i), fun _ => rfl⟩,
      fun across => absurd across.2 (Nat.not_lt.mpr near)⟩
  · exact ⟨fun notAcross => absurd across notAcross, fun _ => s.passMidnight_mark new l i⟩

/-- However many of its times fall due, a line takes one opening (R93). -/
theorem State.dueWork_line (s : State) (new : Nat) (l : LineId) :
    ((∃ i, s.dueAtSet new l i) → (s.dueWork new).line l = (s.line l).opened)
      ∧ ((∀ i, ¬ s.dueAtSet new l i) → (s.dueWork new).line l = s.line l) := by
  rcases s.dueWork_cases new with ⟨forward, work⟩ | ⟨below, near, work⟩ | ⟨across, work⟩ <;> rw [work]
  · simp only [← State.dueAtSet_forward forward]
    exact s.passMinutes_line _ l
  · exact ⟨fun ⟨i, due⟩ => absurd due (State.not_dueAtSet_near below near l i), fun _ => rfl⟩
  · refine State.handOpenings_due (s.clearMarks.setMarks _) ?_
    simp only [State.dueAtSet_across across, exists_or, ← State.mem_dueLines, List.contains_iff_mem,
      List.mem_append]

/-- The due work of a set touches the marks and the lines. -/
theorem State.dueWork_frame (s : State) (new : Nat) :
    s.dueWork new = { s with marks := (s.dueWork new).marks, lines := (s.dueWork new).lines } := by
  rcases s.dueWork_cases new with ⟨-, work⟩ | ⟨-, -, work⟩ | ⟨-, work⟩ <;> rw [work]
  · exact s.passMinutes_frame _
  · unfold State.passMidnight
    rw [State.handOpenings_frame]
    rfl

/-- Settles O22: the set keeps the marks and the lines that the due work of its case gives. -/
theorem timeSetDoesDueWork : Obligations.TimeSetDoesDueWork := by
  intro h minute second s taken hm hs valid current new at' across due
  have set : s.setClock minute.val second.val = { s.dueWork new with
      minute := ⟨minute.val, hm⟩, second := ⟨second.val, hs⟩, timeValid := true } := by
    rw [s.setClock_inRange hm hs, if_pos valid]
  refine ⟨_, exec_time taken minute second, ?_⟩
  rw [set]
  refine ⟨rfl, rfl, s.dueWork_mark new, s.dueWork_line new, ?_⟩
  rw [s.dueWork_frame new, ← valid]

end Sys2Proof.Machine

namespace Sys2Proof.Machine

variable {l : LineId} {i : Slot} {s t : State} {c : Circuit} {p : State × Cycle}

/-! ## What the operations leave of their own line -/

@[simp] theorem State.line_modArbiter (s : State) (l : LineId) (f : Arbiter → Arbiter) :
    (s.modArbiter l f).line l = { s.line l with arbiter := f (s.line l).arbiter } := State.line_modLine_self ..

@[simp] theorem State.line_modWindow (s : State) (l : LineId) (f : Window → Window) :
    (s.modWindow l f).line l = { s.line l with window := f (s.line l).window } := State.line_modLine_self ..

@[simp] theorem State.line_modCounters (s : State) (l : LineId) (f : LineCounters → LineCounters) :
    (s.modCounters l f).line l = { s.line l with counters := f (s.line l).counters } := State.line_modLine_self ..

@[simp] theorem State.line_setCircuit (s : State) (l : LineId) (d : Option Circuit) :
    (s.setCircuit l d).line l = { s.line l with circuit := d } := State.line_modLine_self ..

theorem State.line_closeWindow (s : State) (l : LineId) : (s.closeWindow l).line l = { s.line l with
    window := { (s.line l).window with state := .closed, unitsEnded := false }
    arbiter := (s.line l).arbiter.endBTurn } := by
  rw [State.closeWindow, State.line_modLine_self, State.line_congr (s.clearPassMarks_frame l).1]

/-! ## The end of a FILLER run -/

/-- A choice with filler-run at 0 for another cycle than FILLER (R12). -/
def runEnded (l : LineId) (p : State × Cycle) : State × Cycle :=
  (if p.2 = .filler then p.1 else p.1.modLine l fun x => { x with fillerRun := 0 }, p.2)

/-- The choice is what the first source gives, with the FILLER run ended (R105, R12). -/
theorem State.chooseCycle_eq (s : State) (l : LineId) :
    s.chooseCycle l = runEnded l ((s.endTests l).serveOperation l) := rfl

@[simp] theorem runEnded_cycle (l : LineId) (p : State × Cycle) : (runEnded l p).2 = p.2 := rfl

@[simp] theorem runEnded_records (l : LineId) (p : State × Cycle) : (runEnded l p).1.records = p.1.records := by
  unfold runEnded
  split <;> rfl

@[simp] theorem runEnded_record (l : LineId) (p : State × Cycle) (i : Slot) :
    (runEnded l p).1.record i = p.1.record i := State.record_congr (runEnded_records l p) i

@[simp] theorem runEnded_part (l m : LineId) (p : State × Cycle) (i : Slot) :
    (runEnded l p).1.part? i m = p.1.part? i m := by
  rw [State.part?, State.part?, runEnded_record]

theorem runEnded_line (l : LineId) (p : State × Cycle) :
    (runEnded l p).1.line l = if p.2 = .filler then p.1.line l else { p.1.line l with fillerRun := 0 } := by
  unfold runEnded
  split <;> simp

/-- The fields of a line that the sources read and write, filler-run apart. -/
@[simp] theorem runEnded_fields (l : LineId) (p : State × Cycle) :
    ((runEnded l p).1.line l).circuit = (p.1.line l).circuit
      ∧ ((runEnded l p).1.line l).callList = (p.1.line l).callList
      ∧ ((runEnded l p).1.line l).freeQueue = (p.1.line l).freeQueue
      ∧ ((runEnded l p).1.line l).window = (p.1.line l).window
      ∧ ((runEnded l p).1.line l).arbiter = (p.1.line l).arbiter
      ∧ ((runEnded l p).1.line l).counters = (p.1.line l).counters := by
  rw [runEnded_line]
  split <;> exact ⟨rfl, rfl, rfl, rfl, rfl, rfl⟩

@[simp] theorem sendingBegun_runEnded : sendingBegun s l i (runEnded l p) ↔ sendingBegun s l i p := by
  simp [sendingBegun]

@[simp] theorem sendingGoesOn_runEnded : sendingGoesOn s l i (runEnded l p) ↔ sendingGoesOn s l i p := by
  simp [sendingGoesOn]

@[simp] theorem unitBegun_runEnded : unitBegun s l (runEnded l p) ↔ unitBegun s l p := by simp [unitBegun]

@[simp] theorem clearHanded_runEnded : clearHanded l c (runEnded l p) ↔ clearHanded l c p := by simp [clearHanded]

@[simp] theorem cutHanded_runEnded : cutHanded s l c (runEnded l p) ↔ cutHanded s l c p := by simp [cutHanded]

@[simp] theorem trafficHanded_runEnded : trafficHanded s l c (runEnded l p) ↔ trafficHanded s l c p := by
  simp [trafficHanded, blockHanded]

/-! ## A cycle counted in a T turn -/

/-- turn-cycles after a cycle of the circuit (R114). -/
def Arbiter.counted (a : Arbiter) (limit : Nat) : Arbiter :=
  match a.turn with
  | .telex => { a with turnCycles := min limit (a.turnCycles + 1) }
  | .noTurn => a
  | .bulletin => a

theorem Arbiter.counted_telex {a : Arbiter} (h : a.turn = .telex) (limit : Nat) :
    a.counted limit = { a with turnCycles := min limit (a.turnCycles + 1) } := by simp [Arbiter.counted, h]

theorem Arbiter.counted_other {a : Arbiter} (h : a.turn ≠ .telex) (limit : Nat) : a.counted limit = a := by
  unfold Arbiter.counted
  split
  · contradiction
  · rfl
  · rfl

@[simp] theorem Arbiter.counted_phasePointer (a : Arbiter) (limit : Nat) :
    (a.counted limit).phasePointer = a.phasePointer := by
  unfold Arbiter.counted
  split <;> rfl

@[simp] theorem countedTurn_cycle (l : LineId) (p : State × Cycle) : (countedTurn l p).2 = p.2 := rfl

@[simp] theorem countedTurn_record (l : LineId) (p : State × Cycle) (i : Slot) :
    (countedTurn l p).1.record i = p.1.record i := rfl

@[simp] theorem countedTurn_line (l : LineId) (p : State × Cycle) : (countedTurn l p).1.line l
    = { p.1.line l with arbiter := (p.1.line l).arbiter.counted (p.1.lineConfig l).turn } := State.line_modArbiter ..

@[simp] theorem cutHanded_countedTurn : cutHanded s l c (countedTurn l p) ↔ cutHanded s l c p := by simp [cutHanded]

@[simp] theorem trafficHanded_countedTurn : trafficHanded s l c (countedTurn l p) ↔ trafficHanded s l c p := by
  simp [trafficHanded, blockHanded]

@[simp] theorem clearHanded_countedTurn : clearHanded l c (countedTurn l p) ↔ clearHanded l c p := by
  simp [clearHanded]

/-! ## The tests of the sources -/

theorem find?_iff_firstWith {f : Slot → Bool} {P : Slot → Prop} (h : ∀ i, f i = true ↔ P i) (q : List Slot) :
    q.find? f = some i ↔ firstWith P q i := by
  rw [List.find?_eq_some_iff_append]
  constructor
  · rintro ⟨hi, a, b, e, before⟩
    exact ⟨a, b, e, (h i).mp hi, fun j hj pj => by simpa [(h j).mpr pj] using before j hj⟩
  · rintro ⟨a, b, e, hi, before⟩
    exact ⟨(h i).mpr hi, a, b, e, fun j hj => by simpa [← h] using before j hj⟩

theorem find?_none_iff_none {f : Slot → Bool} {P : Slot → Prop} (h : ∀ i, f i = true ↔ P i) (q : List Slot) :
    q.find? f = none ↔ ∀ i ∈ q, ¬ P i := by
  simp only [List.find?_eq_none, h]

/-- A READY cut-in is queued on a line (R73, R110). -/
def State.cutInReady (s : State) (l : LineId) : Prop := ∃ i ∈ (s.line l).cutInQueue, mayBeSent s l i

theorem State.nextCutIn_iff : s.nextCutIn l = some i ↔ firstWith (mayBeSent s l) (s.line l).cutInQueue i :=
  find?_iff_firstWith (s.sendable_iff l) _

theorem State.nextCutIn_none_iff : s.nextCutIn l = none ↔ ¬ s.cutInReady l := by
  unfold State.nextCutIn State.cutInReady
  rw [find?_none_iff_none (P := mayBeSent s l) (s.sendable_iff l)]
  simp

theorem State.nextFree_iff : s.nextFree l = some i ↔ firstWith (mayBeSent s l) (s.line l).freeQueue i :=
  find?_iff_firstWith (s.sendable_iff l) _

theorem State.nextFree_none_iff : s.nextFree l = none ↔ ∀ i ∈ (s.line l).freeQueue, ¬ mayBeSent s l i :=
  find?_none_iff_none (s.sendable_iff l) _

theorem State.passes_iff (s : State) (l : LineId) (i : Slot) :
    (s.sendable l i && (s.part? i l).any fun p => !p.passMark) = true ↔ readByPass s l i := by
  rw [Bool.and_eq_true, State.sendable_iff, readByPass]
  cases s.part? i l <;> simp [and_assoc]

theorem State.nextPass_iff : s.nextPass l = some i ↔ firstWith (readByPass s l) (s.line l).windowQueue i :=
  find?_iff_firstWith (s.passes_iff l) _

theorem State.nextPass_none_iff : s.nextPass l = none ↔ ∀ i ∈ (s.line l).windowQueue, ¬ readByPass s l i :=
  find?_none_iff_none (s.passes_iff l) _

/-- The pass of a line's window has nothing left after a unit (R99, R101). -/
def State.windowSpent (s : State) (l : LineId) : Prop :=
  (∀ i ∈ (s.line l).windowQueue, ¬ readByPass s l i) ∧ (s.line l).window.unitsEnded = true

theorem State.askWindow_nothing_iff : s.askWindow l = .nothing ↔ s.windowSpent l := by
  unfold State.askWindow State.windowSpent
  rw [← State.nextPass_none_iff]
  cases s.nextPass l with
  | none => cases (s.line l).window.unitsEnded <;> simp
  | some i => simp

theorem State.readyTraffic_iff : s.readyTraffic l c = true ↔ hasTraffic s l c := by
  unfold State.readyTraffic State.nextMessage hasTraffic
  cases c.current with
  | some i => simp
  | none =>
    cases (s.line l).entry? c.ship with
    | none => simp
    | some e => simp [State.oldestReady, State.isReady, Option.any_eq_true]

theorem State.nextMessage_none_iff : s.nextMessage l c = none ↔ ¬ hasTraffic s l c := by
  rw [← State.readyTraffic_iff, State.readyTraffic]
  simp

theorem State.cutDue_iff : s.cutDue c = true ↔ cutWaits s c := by
  unfold State.cutDue cutWaits
  cases c.current <;> simp [State.isMarked, Option.any_eq_true]

/-- A circuit that carries traffic: LINKED or PARKED. -/
def Circuit.serving (c : Circuit) : Prop := c.state = .linked ∨ c.state = .parked

theorem Circuit.inTraffic_iff : c.state.inTraffic = true ↔ c.serving := by
  unfold Circuit.serving
  cases c.state <;> simp [CircuitState.inTraffic]
end Sys2Proof.Machine

namespace Sys2Proof.Machine

variable {l : LineId} {i : Slot} {s t u : State} {c : Circuit} {p : State × Cycle}

/-! ## The cycles a bulletin or a window hands -/

/-- A sending begun on a card with the same records (R74). -/
theorem State.beginSending_begun (records : t.records = s.records) (i : Slot) :
    sendingBegun s l i (t.beginSending l i) := by
  intro r x hr hx
  have part : t.part? i l = some x := by rw [State.part?, State.record_congr records]; exact hx
  have record : t.record i = some r := (State.record_congr records i).trans hr
  refine ⟨by rw [State.beginSending, record]; rfl, ?_⟩
  rw [State.beginSending_fst, State.part?_modPart (f := Part.begun) t i l fun _ => rfl, part]
  rfl

/-- The next cycle of a sending (R74). -/
theorem State.continueSending_goesOn (s : State) (l : LineId) (i : Slot) :
    sendingGoesOn s l i (s.continueSending l i) := by
  intro r x hr hx
  unfold State.continueSending
  rw [hr, hx]
  refine ⟨rfl, ?_⟩
  dsimp only
  rw [State.part?_modPart s i l fun _ => by rfl, hx]
  rfl

@[simp] theorem State.beginSending_line (s : State) (l : LineId) (i : Slot) :
    (s.beginSending l i).1.line l = s.line l := by
  rw [State.beginSending_fst]
  rfl

@[simp] theorem State.continueSending_line (s : State) (l : LineId) (i : Slot) :
    (s.continueSending l i).1.line l = s.line l := by
  unfold State.continueSending
  dsimp only
  split <;> rfl

theorem SameTraffic.nextPass (h : SameTraffic l s t) : t.nextPass l = s.nextPass l := by
  have part : ∀ i, t.part? i l = s.part? i l := fun i => by
    rw [State.part?, State.part?, State.record_congr h.records]
  simp only [State.nextPass, h.windows, State.sendable_congr h.records, part]

theorem SameTraffic.askWindow (h : SameTraffic l s t) : t.askWindow l = s.askWindow l := by
  rw [State.askWindow, State.askWindow, h.nextPass, h.window]

theorem SameTraffic.modArbiter (s : State) (f : Arbiter → Arbiter) : SameTraffic l s (s.modArbiter l f) :=
  .modLine s (fun _ => rfl) (fun _ => rfl) (fun _ => rfl) (fun _ => rfl) (fun _ => rfl) fun _ => rfl

/-- The answer of the window is begun (R99, R112). -/
theorem State.beginUnit_begun (same : SameTraffic l s t) : unitBegun s l (t.beginUnit l (s.askWindow l)) := by
  refine ⟨fun i first => ?_, fun unread fresh => ?_⟩
  · have part : s.askWindow l = .part i := by rw [State.askWindow, State.nextPass_iff.mpr first]
    rw [part]
    exact ⟨State.beginSending_begun same.records i, by rw [State.beginUnit, State.beginSending_line, same.window]⟩
  · have notice : s.askWindow l = .notice := by rw [State.askWindow, State.nextPass_none_iff.mpr unread, fresh]; rfl
    rw [notice]
    exact ⟨rfl, by rw [State.beginUnit, State.handNotice, State.line_modWindow, same.window]⟩

theorem State.beginUnit_arbiter (s : State) (l : LineId) {answer : WindowAnswer} (h : answer ≠ .nothing) :
    ((s.beginUnit l answer).1.line l).arbiter = (s.line l).arbiter := by
  cases answer with
  | part i => rw [State.beginUnit, State.beginSending_line]
  | notice => rw [State.beginUnit, State.handNotice, State.line_modWindow]
  | nothing => contradiction

/-! ## The cycles a circuit hands -/

/-- Two cards of which a circuit on a line reads the same: the text, the telex messages, what is READY and what is
marked, and the line's calls and counters. -/
structure SameMessages (l : LineId) (s t : State) : Prop where
  text : t.text = s.text
  telex : ∀ i r x, s.record i = some r → r.body = .telex x → t.record i = some r
  ready : t.isReady = s.isReady
  marked : t.isMarked = s.isMarked
  calls : (t.line l).callList = (s.line l).callList
  counters : (t.line l).counters = (s.line l).counters

theorem SameMessages.refl (s : State) : SameMessages l s s := ⟨rfl, fun _ _ _ hr _ => hr, rfl, rfl, rfl, rfl⟩

theorem SameMessages.trans (h1 : SameMessages l s t) (h2 : SameMessages l t u) : SameMessages l s u :=
  ⟨h2.text.trans h1.text, fun i r x hr hb => h2.telex i r x (h1.telex i r x hr hb) hb, h2.ready.trans h1.ready,
    h2.marked.trans h1.marked, h2.calls.trans h1.calls, h2.counters.trans h1.counters⟩

theorem SameMessages.modArbiter (s : State) (f : Arbiter → Arbiter) : SameMessages l s (s.modArbiter l f) :=
  ⟨rfl, fun _ _ _ hr _ => hr, rfl, rfl, by simp, by simp⟩

theorem Record.modPart_telex {r : Record} {x : Telex} (hb : r.body = .telex x) (l : LineId) (f : Part → Part) :
    r.modPart l f = r := by
  simp [Record.modPart, Record.modBulletin, hb]

theorem Record.modPart_state (r : Record) (l : LineId) (f : Part → Part) : (r.modPart l f).state = r.state := by
  unfold Record.modPart Record.modBulletin
  split <;> rfl

/-- The window's closing clears pass-marks, which no circuit reads (R101). -/
theorem SameMessages.closeWindow (s : State) : SameMessages l s (s.closeWindow l) := by
  have record : ∀ i, (s.closeWindow l).record i
      = if i ∈ (s.line l).windowQueue then (s.record i).map fun r => r.modPart l Part.unmarked else s.record i :=
    s.clearPassMarks_record l
  refine ⟨(State.fixed_fields (s.fixed_closeWindow l)).2.2.2.2.2.2.1, fun i r x hr hb => ?_, ?_, ?_, ?_, ?_⟩
  · rw [record, hr, Option.map_some, Record.modPart_telex hb, ite_self]
  · funext i
    rw [State.isReady, State.isReady, record]
    split
    · cases s.record i <;> simp [Record.modPart_state]
    · rfl
  · funext i
    rw [State.isMarked, State.isMarked, record]
    split
    · cases s.record i <;> simp [Record.withdrawMark_modPart]
    · rfl
  · rw [State.line_closeWindow]
  · rw [State.line_closeWindow]

theorem SameMessages.cutDue (h : SameMessages l s t) : t.cutDue c = s.cutDue c := by
  rw [State.cutDue, State.cutDue, h.marked]

theorem SameMessages.nextMessage (h : SameMessages l s t) : t.nextMessage l c = s.nextMessage l c := by
  have oldest : t.oldestReady = s.oldestReady := funext fun e => by rw [State.oldestReady, State.oldestReady, h.ready]
  rw [State.nextMessage, State.nextMessage, Line.entry?, Line.entry?, h.calls, oldest]

@[simp] theorem State.line_bumpBlocks (s : State) (l : LineId) : (s.bumpBlocks l).line l = { s.line l with
    counters := { (s.line l).counters with blocksSent := bump (s.line l).counters.blocksSent } } :=
  s.line_modCounters l _

/-- The cut notice handed (R46, R59). -/
theorem State.handCut_handed (counters : (t.line l).counters = (s.line l).counters) (c : Circuit) :
    cutHanded s l c (t.handCut l c) := by
  refine ⟨rfl, ?_, ?_⟩
  · rw [State.handCut, State.line_bumpBlocks, State.line_setCircuit]
    cases cut : c.cut <;> simp [Circuit.unparkedSilence, cut]
  · rw [State.handCut, State.line_bumpBlocks, State.line_setCircuit, counters]

theorem State.isReady_iff (s : State) (i : Slot) :
    s.isReady i = true ↔ ∃ r, s.record i = some r ∧ r.state = .ready := by
  simp [State.isReady, Option.any_eq_true]

theorem State.handBlock_eq {r : Record} (hr : s.record i = some r) : s.handBlock l c i =
    (((s.modRecord i fun r => if r.state = .ready then { r with state := .onAir } else r).setCircuit l (some { c with
        state := .linked, current := some i, block := some (s.formBlock c r).1, k := (s.formBlock c r).2
        lingerCount := 0, silenceCount := c.unparkedSilence })).bumpBlocks l,
      .block (s.formBlock c r).1.chars) := by
  rw [State.handBlock, hr]

/-- What a circuit hands of a message its BLOCK is of (R36, R59). -/
theorem State.handBlock_handed (same : SameMessages l s t) (next : s.nextMessage l c = some i) :
    blockHanded s l c (t.handBlock l c i) := by
  intro j r x hr hb chosen
  have this : s.nextMessage l c = some j := by
    unfold State.nextMessage
    rcases chosen with current | ⟨none', e, he, first⟩
    · rw [current]
    · rw [none', he]
      exact (find?_iff_firstWith s.isReady_iff _).mpr first
  obtain rfl : i = j := Option.some.inj (next.symm.trans this)
  have record := same.telex i r x hr hb
  have chars : ∀ a b, t.readChars r a b = s.readChars r a b := fun a b => by
    rw [State.readChars, State.readChars, same.text]
  refine ⟨(t.formBlock c r).1, (t.formBlock c r).2, fun old block => ?_, fun block => ?_, ?_⟩
  · rw [State.formBlock, block]
    exact ⟨rfl, rfl⟩
  · rw [State.formBlock, block, ← chars]
    exact ⟨rfl, rfl⟩
  rw [State.handBlock_eq record]
  refine ⟨rfl, ?_, ?_, ?_⟩
  · rw [State.line_bumpBlocks, State.line_setCircuit]
    rfl
  · show State.record (State.modRecord t i _) i = _
    rw [State.record_modRecord_self, record, Option.map_some]
    by_cases ready : r.state = .ready <;> simp [ready]
  · rw [State.line_bumpBlocks, State.line_setCircuit, ← same.counters]
    rfl

/-- A circuit given the cycle as traffic hands the cut notice or a BLOCK, where it has one to hand (R36, R46, R59). -/
theorem State.handTraffic_handed (same : SameMessages l s t) : trafficHanded s l c (t.handTraffic l c) := by
  refine ⟨fun waits => ?_, fun none' traffic => ?_⟩
  · rw [State.handTraffic, if_pos (by rw [same.cutDue]; exact State.cutDue_iff.mpr waits)]
    exact State.handCut_handed same.counters c
  · rw [State.handTraffic, if_neg (by rw [same.cutDue, State.cutDue_iff]; exact none'), same.nextMessage]
    cases next : s.nextMessage l c with
    | none => exact absurd traffic (State.nextMessage_none_iff.mp next)
    | some i => exact State.handBlock_handed same next

/-- linger-count of a circuit given the cycle without traffic: 0 where it unparks (R60). -/
def Circuit.lingered (c : Circuit) : Nat := if c.state = .parked then 0 else c.lingerCount

/-- A circuit without traffic is given the cycle as a LINKED one (R40, R60). -/
theorem State.handTraffic_idle (serving : c.serving) (none' : ¬ hasTraffic s l c) (uncut : ¬ cutWaits s c) :
    s.handTraffic l c = s.handIdle l { c with state := .linked, lingerCount := c.lingered } := by
  rw [State.handTraffic, if_neg (by rwa [State.cutDue_iff]), State.nextMessage_none_iff.mpr none']
  unfold Circuit.lingered
  dsimp only
  rcases serving with linked | parked
  · rw [if_neg (by rw [linked]; nofun), if_neg (by rw [linked]; nofun), ← linked]
  · rw [if_pos parked, if_pos parked]

/-- Linger is waived, or has run out (R40). -/
theorem State.handIdle_clears (h : s.lingerWaived l = true ∨ c.lingerCount = (s.lineConfig l).linger) :
    s.handIdle l c = (s.setCircuit l (some { c.toClearing .ordinary with clearCycles := 1 }), .clear) := if_pos h

/-- Linger goes on (R40). -/
theorem State.handIdle_lingers (kept : s.lingerWaived l = false) (h : c.lingerCount ≠ (s.lineConfig l).linger) :
    s.handIdle l c = (s.setCircuit l (some { c with lingerCount := c.lingerCount + 1 }), .idleblock) :=
  if_neg (by simp [kept, h])

/-- A circuit given the cycle as traffic changes of its line the circuit and the counters (R36, R40, R46). -/
theorem State.handTraffic_line (s : State) (l : LineId) (c : Circuit) :
    ∃ d n, (s.handTraffic l c).1.line l = { s.line l with circuit := d, counters := n } := by
  have idle : ∀ c, ∃ d n, (s.handIdle l c).1.line l = { s.line l with circuit := d, counters := n } := fun c => by
    unfold State.handIdle
    split <;> exact ⟨_, _, State.line_setCircuit ..⟩
  unfold State.handTraffic
  split
  · exact ⟨_, _, by rw [State.handCut, State.line_bumpBlocks, State.line_setCircuit]⟩
  · split
    · next i _ =>
      cases hr : s.record i with
      | none => exact ⟨_, _, by rw [State.handBlock, hr]⟩
      | some r =>
        exact ⟨_, _, by
          rw [State.handBlock_eq hr, State.line_bumpBlocks, State.line_setCircuit]
          rfl⟩
    · split
      · exact idle _
      · exact idle _

@[simp] theorem State.handTraffic_fields (s : State) (l : LineId) (c : Circuit) :
    ((s.handTraffic l c).1.line l).arbiter = (s.line l).arbiter
      ∧ ((s.handTraffic l c).1.line l).window = (s.line l).window := by
  obtain ⟨d, n, line⟩ := s.handTraffic_line l c
  rw [line]
  exact ⟨rfl, rfl⟩

theorem State.handTraffic_lineConfig (s : State) (l : LineId) (c : Circuit) :
    (s.handTraffic l c).1.lineConfig l = s.lineConfig l :=
  State.lineConfig_congr (State.fixed_fields (s.fixed_handTraffic l c)).1.2.2.2.2.2.2 l
end Sys2Proof.Machine

namespace Sys2Proof.Machine

variable {l : LineId} {i j : Slot} {s t u : State} {c : Circuit} {p : State × Cycle}

/-! ## Which source applies -/

/-- A circuit takes source 1: an operation, CALLING while no cut-in is READY (R107). -/
def State.operates (s : State) (l : LineId) (c : Circuit) : Prop :=
  c.state = .aligning ∨ c.state = .identifying ∨ c.state = .rephasing ∨ c.state = .clearing
    ∨ (c.state = .calling ∧ ¬ s.cutInReady l)

/-- A circuit takes source 2, the forced keep (R55, R108). -/
def State.keeps (s : State) (l : LineId) (c : Circuit) : Prop :=
  c.state = .parked ∧ (s.lineConfig l).parkLimit - 4 ≤ c.silenceCount

/-- A circuit takes source 3, the cut notice (R109). -/
def State.cuts (s : State) (c : Circuit) : Prop := c.state = .linked ∧ cutWaits s c

/-- The circuit of a line takes none of sources 1 to 3 (R105). -/
def State.unclaimed (s : State) (l : LineId) : Prop :=
  ∀ c, (s.line l).circuit = some c → ¬ s.operates l c ∧ ¬ s.keeps l c ∧ ¬ s.cuts c

/-- The circuit of a line, where it has one, carries traffic. -/
def State.quiet (s : State) (l : LineId) : Prop := ∀ c, (s.line l).circuit = some c → c.serving

theorem State.operates_iff (s : State) (l : LineId) (c : Circuit) :
    (c.state.inOperation || (decide (c.state = .calling) && (s.nextCutIn l).isNone)) = true ↔ s.operates l c := by
  rw [State.operates, ← State.nextCutIn_none_iff]
  cases c.state <;> simp [CircuitState.inOperation]

theorem State.not_operates_of_serving (h : c.serving) : ¬ s.operates l c := by
  rcases h with h | h <;> simp [State.operates, h]

theorem State.not_keeps_of_linked (h : c.state = .linked) : ¬ s.keeps l c := by simp [State.keeps, h]

theorem State.unclaimed.quiet (h : s.unclaimed l) (none' : ¬ s.cutInReady l) : s.quiet l := by
  intro c hc
  have idle := (h c hc).1
  unfold Circuit.serving
  unfold State.operates at idle
  cases hs : c.state <;> simp_all

theorem State.serveOperation_operates (hc : (s.line l).circuit = some c) (h : s.operates l c) :
    s.serveOperation l = countedTurn l (s.handOperation l c) := by
  unfold State.serveOperation
  rw [hc, Option.filter_some, if_pos ((s.operates_iff l c).mpr h)]

theorem State.serveOperation_serveKeep (h : ∀ c, (s.line l).circuit = some c → ¬ s.operates l c) :
    s.serveOperation l = s.serveKeep l := by
  unfold State.serveOperation
  cases hc : (s.line l).circuit with
  | none => rfl
  | some c => rw [Option.filter_some, if_neg fun due => h c hc ((s.operates_iff l c).mp due)]

theorem State.serveOperation_keeps (hc : (s.line l).circuit = some c) (h : s.keeps l c) :
    s.serveOperation l = s.handKeep l := by
  have idle : ∀ d, (s.line l).circuit = some d → ¬ s.operates l d := fun d hd => by
    cases hc.symm.trans hd
    exact State.not_operates_of_serving (.inr h.1)
  rw [State.serveOperation_serveKeep idle, State.serveKeep, hc]
  exact if_pos (by simpa [Circuit.forcedKeep, State.keeps] using h)

theorem State.serveKeep_serveCut (h : ∀ c, (s.line l).circuit = some c → ¬ s.keeps l c) :
    s.serveKeep l = s.serveCut l := by
  refine if_neg fun due => ?_
  obtain ⟨c, hc, forced⟩ := (Option.any_eq_true ..).mp due
  exact h c hc (by simpa [Circuit.forcedKeep, State.keeps] using forced)

theorem State.serveOperation_cuts (hc : (s.line l).circuit = some c) (h : s.cuts c) :
    s.serveOperation l = countedTurn l (s.handCut l c) := by
  have only : ∀ d, (s.line l).circuit = some d → d = c := fun d hd => Option.some.inj (hd.symm.trans hc)
  rw [State.serveOperation_serveKeep fun d hd => only d hd ▸ State.not_operates_of_serving (.inl h.1),
    State.serveKeep_serveCut fun d hd => only d hd ▸ State.not_keeps_of_linked h.1, State.serveCut, hc,
    Option.filter_some, if_pos (by simp [h.1, State.cutDue_iff.mpr h.2])]

/-- No circuit takes the cut notice, where none is claimed by sources 1 to 3 (R105, R109). -/
theorem State.unclaimed.uncut (h : s.unclaimed l) :
    (s.line l).circuit.filter (fun c => decide (c.state = .linked) && s.cutDue c) = none := by
  refine Option.filter_eq_none_iff.mpr fun c hc due => (h c hc).2.2 ?_
  simpa [State.cuts, ← State.cutDue_iff] using due

theorem State.serveOperation_serveCut (h : s.unclaimed l) : s.serveOperation l = s.serveCut l := by
  rw [State.serveOperation_serveKeep fun c hc => (h c hc).1, State.serveKeep_serveCut fun c hc => (h c hc).2.1]

theorem State.serveOperation_breakSending (h : s.unclaimed l) (air : s.bulletinOnAir l = some i)
    (marked : s.isMarked i = true) : s.serveOperation l = s.breakSending l i := by
  have due : s.brokenEndDue l = some i := by
    rw [State.brokenEndDue, air]
    exact if_pos marked
  rw [State.serveOperation_serveCut h, State.serveCut, h.uncut, due]

theorem State.serveOperation_serveCutIn (h : s.unclaimed l)
    (unmarked : ∀ i, s.bulletinOnAir l = some i → s.isMarked i = false) : s.serveOperation l = s.serveCutIn l := by
  have none' : s.brokenEndDue l = none := by
    unfold State.brokenEndDue
    cases air : s.bulletinOnAir l with
    | none => rfl
    | some i => simp [unmarked i air]
  rw [State.serveOperation_serveCut h, State.serveCut, h.uncut, none']

theorem State.serveCutIn_onAir (h : s.cutInOnAir l = some i) : s.serveCutIn l = s.continueSending l i := by
  rw [State.serveCutIn, h]

theorem State.serveCutIn_ready (off : s.cutInOnAir l = none) (h : s.nextCutIn l = some i) :
    s.serveCutIn l = s.prepareCutIn l i := by
  rw [State.serveCutIn, off, h]

theorem State.serveCutIn_serveUnit (off : s.cutInOnAir l = none) (h : ¬ s.cutInReady l) :
    s.serveCutIn l = s.serveUnit l := by
  rw [State.serveCutIn, off, State.nextCutIn_none_iff.mpr h]

theorem State.serveUnit_onAir (h : s.unitOnAir l = some i) : s.serveUnit l = s.continueSending l i := by
  rw [State.serveUnit, h]

theorem State.serveUnit_notice (off : s.unitOnAir l = none) (h : (s.line l).window.noticeStep ≠ 0) :
    s.serveUnit l = s.handNotice l := by
  rw [State.serveUnit, off]
  exact if_neg h

theorem State.serveUnit_serveWindow (off : s.unitOnAir l = none) (h : (s.line l).window.noticeStep = 0) :
    s.serveUnit l = s.serveWindow l := by
  rw [State.serveUnit, off]
  exact if_pos h

theorem State.bulletinOnAir_none : s.bulletinOnAir l = none ↔ s.cutInOnAir l = none ∧ s.unitOnAir l = none := by
  unfold State.bulletinOnAir
  cases s.cutInOnAir l <;> simp

/-! ## Sources 10 to 7 -/

theorem State.serveTraffic_serving (hc : (s.line l).circuit = some c) (h : c.serving) :
    s.serveTraffic l = countedTurn l (s.handTraffic l c) := by
  rw [State.serveTraffic, hc]
  exact if_pos (Circuit.inTraffic_iff.mpr h)

theorem State.serveTraffic_serveCall (hc : (s.line l).circuit = none) : s.serveTraffic l = s.serveCall l := by
  rw [State.serveTraffic, hc]

/-- Sources 10 to 8 leave the window and the arbiter (R118 to R120). -/
@[simp] theorem State.serveCall_fields (s : State) (l : LineId) :
    ((s.serveCall l).1.line l).window = (s.line l).window
      ∧ ((s.serveCall l).1.line l).arbiter = (s.line l).arbiter := by
  have filler : ((s.serveFiller l).1.line l).window = (s.line l).window
      ∧ ((s.serveFiller l).1.line l).arbiter = (s.line l).arbiter := by
    unfold State.serveFiller
    dsimp only
    split
    · simp
    · split <;> simp
  have free : ((s.serveFree l).1.line l).window = (s.line l).window
      ∧ ((s.serveFree l).1.line l).arbiter = (s.line l).arbiter := by
    unfold State.serveFree
    split
    · simp
    · exact filler
  unfold State.serveCall
  split
  · simp [State.startCall, State.modEntry]
  · exact free

/-- Source 7 leaves the window, and counts in a T turn alone (R114, R117). -/
theorem State.serveTraffic_fields (s : State) (l : LineId) :
    ((s.serveTraffic l).1.line l).window = (s.line l).window
      ∧ (((s.serveTraffic l).1.line l).arbiter = (s.line l).arbiter
        ∨ ((s.serveTraffic l).1.line l).arbiter = (s.line l).arbiter.counted (s.lineConfig l).turn) := by
  unfold State.serveTraffic
  split
  · split
    · simp [State.handTraffic_lineConfig]
    · simp
  · simp

@[simp] theorem State.serveTraffic_window (s : State) (l : LineId) :
    ((s.serveTraffic l).1.line l).window = (s.line l).window := (s.serveTraffic_fields l).1

@[simp] theorem State.serveTraffic_phasePointer (s : State) (l : LineId) :
    ((s.serveTraffic l).1.line l).arbiter.phasePointer = (s.line l).arbiter.phasePointer := by
  rcases (s.serveTraffic_fields l).2 with h | h <;> simp [h]

theorem State.serveTraffic_arbiter (h : (s.line l).arbiter.turn ≠ .telex) :
    ((s.serveTraffic l).1.line l).arbiter = (s.line l).arbiter := by
  rcases (s.serveTraffic_fields l).2 with same | counted
  · exact same
  · rw [counted, Arbiter.counted_other h]

/-! ## Source 6 -/

theorem State.askWindow_of_unspent (h : ¬ s.windowSpent l) : s.askWindow l ≠ .nothing :=
  fun nothing => h (State.askWindow_nothing_iff.mp nothing)

theorem State.unitOfTurn_closes (h : s.windowSpent l) : s.unitOfTurn l = (s.closeWindow l).serveTraffic l := by
  rw [State.unitOfTurn, State.askWindow_nothing_iff.mpr h]

theorem State.unitOfTurn_begins (h : ¬ s.windowSpent l) :
    s.unitOfTurn l = (s.modArbiter l fun a => { a with bBegun := true }).beginUnit l (s.askWindow l) := by
  have asked := State.askWindow_of_unspent h
  unfold State.unitOfTurn
  split
  · contradiction
  · rfl

theorem State.askWithoutCircuit_closes (h : s.windowSpent l) : s.askWithoutCircuit l
    = ((s.modArbiter l fun a => { a with keepOffered := false }).closeWindow l).serveCall l := by
  have asked := (SameTraffic.modArbiter (l := l) s fun a => { a with keepOffered := false }).askWindow
  rw [State.askWindow_nothing_iff.mpr h] at asked
  unfold State.askWithoutCircuit
  dsimp only
  rw [asked]

theorem State.askWithoutCircuit_begins (h : ¬ s.windowSpent l) : s.askWithoutCircuit l
    = (s.modArbiter l fun a => { a with keepOffered := false }).beginUnit l (s.askWindow l) := by
  have asked := (SameTraffic.modArbiter (l := l) s fun a => { a with keepOffered := false }).askWindow
  have unspent := State.askWindow_of_unspent h
  unfold State.askWithoutCircuit
  dsimp only
  rw [asked]
  split
  · contradiction
  · rfl

/-- An opportunistic keep is due at a unit boundary (R57, R112). -/
def State.keepDue (s : State) (l : LineId) (c : Circuit) : Prop :=
  c.state = .parked ∧ (s.lineConfig l).parkLimit / 2 ≤ c.silenceCount
    ∧ c.silenceCount < (s.lineConfig l).parkLimit - 4 ∧ (s.line l).arbiter.keepOffered = false

theorem State.unitBoundary_idle (h : ¬ hasTraffic s l c) : s.unitBoundary l c = s.handTraffic l c := by
  rw [← State.readyTraffic_iff] at h
  exact if_pos (by simpa using h)

theorem State.unitBoundary_eq (h : hasTraffic s l c) : s.unitBoundary l c
    = if c.opportunisticKeep (s.lineConfig l).parkLimit && !(s.line l).arbiter.keepOffered then
        (s.modArbiter l fun a => { a with keepOffered := true }).handKeep l
      else s.readTable l c := by
  rw [← State.readyTraffic_iff] at h
  exact if_neg (by simpa using h)

theorem State.keepDue_iff (s : State) (l : LineId) (c : Circuit) :
    (c.opportunisticKeep (s.lineConfig l).parkLimit && !(s.line l).arbiter.keepOffered) = true ↔ s.keepDue l c := by
  simp [Circuit.opportunisticKeep, State.keepDue, and_assoc]

theorem State.unitBoundary_keep (h : hasTraffic s l c) (due : s.keepDue l c) :
    s.unitBoundary l c = (s.modArbiter l fun a => { a with keepOffered := true }).handKeep l := by
  rw [State.unitBoundary_eq h, if_pos ((s.keepDue_iff l c).mpr due)]

theorem State.unitBoundary_reads (h : hasTraffic s l c) (due : ¬ s.keepDue l c) :
    s.unitBoundary l c = s.readTable l c := by
  rw [State.unitBoundary_eq h, if_neg fun keep => due ((s.keepDue_iff l c).mp keep)]

/-- The arbiter after a read of the table (R113). -/
def Arbiter.read (a : Arbiter) : Arbiter := { a with phasePointer := a.phasePointer + 1, keepOffered := false }

/-- A read of a T entry: the turn begins with the cycle it is given (R113, R114). -/
theorem State.readTable_telex (h : (s.lineConfig l).table[(s.line l).arbiter.phasePointer] = .telex) :
    s.readTable l c = countedTurn l (((s.modArbiter l Arbiter.read).modArbiter l fun a =>
      { a with turn := .telex, turnCycles := 0 }).handTraffic l c) := by
  unfold State.readTable
  dsimp only
  rw [h]
  rfl
end Sys2Proof.Machine

namespace Sys2Proof.Machine

variable {l : LineId} {i j : Slot} {s t u : State} {c : Circuit} {p : State × Cycle}

/-! ## A read of a B entry -/

section read

variable (entry : (s.lineConfig l).table[(s.line l).arbiter.phasePointer] = .bulletin)
include entry

/-- With the pass over the window closes, and the cycle falls to the traffic (R113, R101). -/
theorem State.readTable_closes (h : s.windowSpent l) :
    s.readTable l c = ((s.modArbiter l Arbiter.read).closeWindow l).serveTraffic l := by
  have asked := (SameTraffic.modArbiter (l := l) s fun a =>
    { a with phasePointer := (s.line l).arbiter.phasePointer + 1, keepOffered := false }).askWindow
  rw [State.askWindow_nothing_iff.mpr h] at asked
  unfold State.readTable
  dsimp only
  rw [entry]
  dsimp only
  rw [asked]
  rfl

/-- A LINKED circuit parks before the window's unit, and for a PARKED one it begins (R113, R51, R115). -/
theorem State.readTable_unit (h : ¬ s.windowSpent l) : s.readTable l c =
    if c.state = .linked then
      ((s.modArbiter l Arbiter.read).modArbiter l fun a => { a with turn := .bulletin, bBegun := false }).handPark l c
    else ((s.modArbiter l Arbiter.read).modArbiter l fun a => { a with turn := .bulletin, bBegun := true }).beginUnit l
      (s.askWindow l) := by
  have asked := (SameTraffic.modArbiter (l := l) s fun a =>
    { a with phasePointer := (s.line l).arbiter.phasePointer + 1, keepOffered := false }).askWindow
  have unspent := State.askWindow_of_unspent h
  unfold State.readTable
  dsimp only
  rw [entry]
  dsimp only
  rw [asked]
  split
  · contradiction
  · rfl

theorem State.readTable_parks (h : ¬ s.windowSpent l) (linked : c.state = .linked) :
    s.readTable l c = ((s.modArbiter l Arbiter.read).modArbiter l fun a =>
      { a with turn := .bulletin, bBegun := false }).handPark l c := by
  rw [State.readTable_unit entry h, if_pos linked]

theorem State.readTable_begins (h : ¬ s.windowSpent l) (parked : c.state = .parked) :
    s.readTable l c = ((s.modArbiter l Arbiter.read).modArbiter l fun a =>
      { a with turn := .bulletin, bBegun := true }).beginUnit l (s.askWindow l) := by
  rw [State.readTable_unit entry h, if_neg (by rw [parked]; nofun)]

end read

/-! ## The window's source on a line without an operation -/

section window

theorem State.serveWindow_closed (h : (s.line l).window.state ≠ .isOpen) : s.serveWindow l = s.serveTraffic l :=
  if_neg h

theorem State.serveWindow_begun (h : (s.line l).arbiter.turn = .telex
      ∨ (s.line l).arbiter.turn = .bulletin ∧ (s.line l).arbiter.bBegun = true) :
    s.serveWindow l = s.serveTraffic l := by
  unfold State.serveWindow
  rcases h with turn | ⟨turn, begun⟩
  · simp [turn]
  · simp [turn, begun]

variable (opened : (s.line l).window.state = .isOpen)
include opened

theorem State.serveWindow_unitOfTurn (turn : (s.line l).arbiter.turn = .bulletin)
    (waits : (s.line l).arbiter.bBegun = false) : s.serveWindow l = s.unitOfTurn l := by
  simp [State.serveWindow, opened, turn, waits]

theorem State.serveWindow_askWithoutCircuit (turn : (s.line l).arbiter.turn = .noTurn)
    (none' : (s.line l).circuit = none) : s.serveWindow l = s.askWithoutCircuit l := by
  simp [State.serveWindow, opened, turn, none']

theorem State.serveWindow_unitBoundary (turn : (s.line l).arbiter.turn = .noTurn)
    (hc : (s.line l).circuit = some c) (serving : c.serving) : s.serveWindow l = s.unitBoundary l c := by
  simp [State.serveWindow, opened, turn, hc, Circuit.inTraffic_iff.mpr serving]

end window

/-! ## The phase pointer -/

/-- The phase pointer of a line. -/
def State.pointer (s : State) (l : LineId) : Fin 32 := (s.line l).arbiter.phasePointer

@[simp] theorem State.pointer_countedTurn (l : LineId) (p : State × Cycle) :
    (countedTurn l p).1.pointer l = p.1.pointer l := by simp [State.pointer]

@[simp] theorem State.pointer_setCircuit (s : State) (l : LineId) (d : Option Circuit) :
    (s.setCircuit l d).pointer l = s.pointer l := by simp [State.pointer]

theorem State.pointer_modArbiter (s : State) (l : LineId) {f : Arbiter → Arbiter}
    (h : ∀ a, (f a).phasePointer = a.phasePointer) : (s.modArbiter l f).pointer l = s.pointer l := by
  simp [State.pointer, h]

@[simp] theorem Arbiter.endBTurn_phasePointer (a : Arbiter) : a.endBTurn.phasePointer = a.phasePointer := by
  unfold Arbiter.endBTurn
  split <;> rfl

@[simp] theorem State.pointer_closeWindow (s : State) (l : LineId) : (s.closeWindow l).pointer l = s.pointer l := by
  simp [State.pointer, State.line_closeWindow]

@[simp] theorem State.pointer_handOperation (s : State) (l : LineId) (c : Circuit) :
    (s.handOperation l c).1.pointer l = s.pointer l := by
  unfold State.handOperation
  split
  case h_4 => split <;> simp
  all_goals simp

@[simp] theorem State.pointer_handTraffic (s : State) (l : LineId) (c : Circuit) :
    (s.handTraffic l c).1.pointer l = s.pointer l := by simp [State.pointer]

@[simp] theorem State.pointer_serveTraffic (s : State) (l : LineId) :
    (s.serveTraffic l).1.pointer l = s.pointer l := s.serveTraffic_phasePointer l

@[simp] theorem State.pointer_handKeep (s : State) (l : LineId) : (s.handKeep l).1.pointer l = s.pointer l := by
  simp [State.pointer, State.handKeep]

@[simp] theorem State.pointer_handNotice (s : State) (l : LineId) : (s.handNotice l).1.pointer l = s.pointer l := by
  simp [State.pointer, State.handNotice]

@[simp] theorem State.pointer_handCut (s : State) (l : LineId) (c : Circuit) :
    (s.handCut l c).1.pointer l = s.pointer l := by simp [State.pointer, State.handCut]

@[simp] theorem State.pointer_beginUnit (s : State) (l : LineId) (answer : WindowAnswer) :
    (s.beginUnit l answer).1.pointer l = s.pointer l := by
  cases answer with
  | part i => simp [State.pointer, State.beginUnit]
  | notice => simp [State.beginUnit]
  | nothing => simp [State.beginUnit]

theorem State.pointer_unitEnds (s : State) (l : LineId) : (s.unitEnds l).pointer l = s.pointer l := by
  unfold State.unitEnds
  split
  · generalize hv : s.modLine l _ = v
    have kept : v.pointer l = s.pointer l := by simp [← hv, State.pointer]
    dsimp only
    split <;> simp [kept]
  · rfl

theorem State.pointer_breakSending (s : State) (l : LineId) (i : Slot) :
    (s.breakSending l i).1.pointer l = s.pointer l := by
  have withdrawn : (s.withdrawPart i l true).pointer l = s.pointer l := by
    rw [State.pointer, State.withdrawPart_line, State.leaveQueues_line]
    rfl
  unfold State.breakSending
  dsimp only
  split
  · rw [State.pointer_unitEnds, withdrawn]
  · exact withdrawn

/-- A read moves the phase pointer by one (R113). -/
theorem State.pointer_readTable (s : State) (l : LineId) (c : Circuit) :
    (s.readTable l c).1.pointer l = s.pointer l + 1 := by
  have read : (s.modArbiter l Arbiter.read).pointer l = s.pointer l + 1 := by simp [State.pointer, Arbiter.read]
  rw [← read]
  cases entry : (s.lineConfig l).table[(s.line l).arbiter.phasePointer] with
  | telex =>
    rw [State.readTable_telex entry, State.pointer_countedTurn, State.pointer_handTraffic]
    exact State.pointer_modArbiter _ l fun _ => rfl
  | bulletin =>
    by_cases spent : s.windowSpent l
    · rw [State.readTable_closes entry spent, State.pointer_serveTraffic, State.pointer_closeWindow]
    · rw [State.readTable_unit entry spent]
      split
      · rw [State.handPark, State.pointer_setCircuit]
        exact State.pointer_modArbiter _ l fun _ => rfl
      · rw [State.pointer_beginUnit]
        exact State.pointer_modArbiter _ l fun _ => rfl
end Sys2Proof.Machine

namespace Sys2Proof.Machine

variable {l : LineId} {i j : Slot} {s t u : State} {c : Circuit} {p : State × Cycle}

/-! ## A READY cut-in -/

/-- The card once a cut-in has taken the line: the turn over, the keep to be offered again (R110). -/
def State.cutInTurn (s : State) (l : LineId) : State :=
  s.modArbiter l fun a => { a.endTurn with keepOffered := false }

@[simp] theorem State.cutInTurn_line (s : State) (l : LineId) : (s.cutInTurn l).line l
    = { s.line l with arbiter := ⟨(s.line l).arbiter.phasePointer, .noTurn, 0, false, false⟩ } :=
  State.line_modArbiter ..

/-- The same with a notice run dropped (R100, R110). -/
def State.cutInPrepared (s : State) (l : LineId) : State := (s.cutInTurn l).dropNotice l

@[simp] theorem State.cutInPrepared_line (s : State) (l : LineId) : (s.cutInPrepared l).line l = { s.line l with
    arbiter := ⟨(s.line l).arbiter.phasePointer, .noTurn, 0, false, false⟩
    window := { (s.line l).window with noticeStep := 0 } } := by
  rw [State.cutInPrepared, State.dropNotice, State.line_modWindow, State.cutInTurn_line]

theorem State.cutInTurn_same (s : State) (l : LineId) : SameTraffic l s (s.cutInTurn l) := .modArbiter s _

/-- What a READY cut-in does to the circuit of its line, once no bulletin is on air (R110). -/
def State.takeCutIn (s : State) (l : LineId) (i : Slot) : State × Cycle :=
  match (s.line l).circuit with
  | none => s.beginSending l i
  | some c =>
    match c.state with
    | .calling => (s.setCircuit l none).beginSending l i
    | .linked => if s.readyTraffic l c then s.handPark l c else s.handIdle l c
    | .parked | .aligning | .identifying | .rephasing | .clearing => s.beginSending l i

theorem State.prepareCutIn_abandons (h : s.unitOnAir l = some j) :
    s.prepareCutIn l i = ((s.cutInTurn l).abandonSending l j, .bbroken) := by
  have air : (s.cutInTurn l).unitOnAir l = some j := (s.cutInTurn_same l).unitOnAir.trans h
  unfold State.cutInTurn at air
  unfold State.prepareCutIn
  dsimp only
  rw [air]
  rfl

theorem State.prepareCutIn_takes (h : s.unitOnAir l = none) :
    s.prepareCutIn l i = (s.cutInPrepared l).takeCutIn l i := by
  have air : (s.cutInTurn l).unitOnAir l = none := (s.cutInTurn_same l).unitOnAir.trans h
  unfold State.cutInTurn at air
  unfold State.prepareCutIn
  dsimp only
  rw [air]
  rfl

/-- Beside the circuit nothing of the line changes (R110). -/
@[simp] theorem State.takeCutIn_fields (s : State) (l : LineId) (i : Slot) :
    ((s.takeCutIn l i).1.line l).arbiter = (s.line l).arbiter
      ∧ ((s.takeCutIn l i).1.line l).window = (s.line l).window
      ∧ ((s.takeCutIn l i).1.line l).callList = (s.line l).callList := by
  unfold State.takeCutIn
  split
  · simp
  · split
    · simp
    · split
      · simp [State.handPark]
      · unfold State.handIdle
        split <;> simp
    all_goals simp

theorem State.takeCutIn_idle (h : (s.line l).circuit = none) : s.takeCutIn l i = s.beginSending l i := by
  rw [State.takeCutIn, h]

theorem State.takeCutIn_calling (hc : (s.line l).circuit = some c) (h : c.state = .calling) :
    s.takeCutIn l i = (s.setCircuit l none).beginSending l i := by
  simp only [State.takeCutIn, hc, h]

theorem State.takeCutIn_parked (hc : (s.line l).circuit = some c) (h : c.state = .parked) :
    s.takeCutIn l i = s.beginSending l i := by
  simp only [State.takeCutIn, hc, h]

theorem State.takeCutIn_linked (hc : (s.line l).circuit = some c) (h : c.state = .linked) :
    s.takeCutIn l i = if s.readyTraffic l c then s.handPark l c else s.handIdle l c := by
  simp only [State.takeCutIn, hc, h]

theorem hasTraffic_congr (records : t.records = s.records) (calls : (t.line l).callList = (s.line l).callList) :
    hasTraffic t l c ↔ hasTraffic s l c := by
  simp only [hasTraffic, Line.entry?, calls, State.record_congr records]

/-- The cut-in takes the line of a LINKED circuit: CLEAR without traffic, PARK with it (R110, R40, R51). -/
theorem State.prepareCutIn_linked (off : s.unitOnAir l = none) (hc : (s.line l).circuit = some c)
    (linked : c.state = .linked) (ready : s.cutInReady l) :
    (¬ hasTraffic s l c → clearHanded l c (s.prepareCutIn l i))
      ∧ (hasTraffic s l c → (s.prepareCutIn l i).2 = .park
        ∧ ((s.prepareCutIn l i).1.line l).circuit = some { c with state := .parked, silenceCount := 0 }) := by
  have circuit : ((s.cutInPrepared l).line l).circuit = some c := by rw [State.cutInPrepared_line]; exact hc
  have traffic : (s.cutInPrepared l).readyTraffic l c = true ↔ hasTraffic s l c :=
    State.readyTraffic_iff.trans (hasTraffic_congr rfl (by rw [State.cutInPrepared_line]))
  have next : (s.cutInPrepared l).nextCutIn l ≠ none := by
    rw [ne_eq, State.nextCutIn_none_iff, not_not]
    unfold State.cutInReady
    rw [State.cutInPrepared_line]
    exact ready
  rw [State.prepareCutIn_takes off, State.takeCutIn_linked circuit linked]
  refine ⟨fun none' => ?_, fun some' => ?_⟩
  · have waived : (s.cutInPrepared l).lingerWaived l = true := by
      rw [State.lingerWaived, Option.isSome_iff_ne_none.mpr next, Bool.true_or]
    rw [if_neg fun h => none' (traffic.mp h), State.handIdle_clears (.inl waived)]
    exact ⟨rfl, by rw [State.line_setCircuit]; rfl⟩
  · rw [if_pos (traffic.mpr some')]
    exact ⟨rfl, by rw [State.handPark, State.line_setCircuit]; rfl⟩

/-- The cut-in begins on a line whose circuit, where it has one, is CALLING or PARKED (R110, R107). -/
theorem State.prepareCutIn_begins (off : s.unitOnAir l = none)
    (h : ∀ c, (s.line l).circuit = some c → c.state = .calling ∨ c.state = .parked) :
    sendingBegun s l i (s.prepareCutIn l i) ∧ ∀ c, (s.line l).circuit = some c →
      (c.state = .calling → ((s.prepareCutIn l i).1.line l).circuit = none)
        ∧ (c.state = .parked → ((s.prepareCutIn l i).1.line l).circuit = some c) := by
  have line := s.cutInPrepared_line l
  have begun := fun (t : State) (records : t.records = s.records) => State.beginSending_begun (l := l) records i
  rw [State.prepareCutIn_takes off]
  cases hc : (s.line l).circuit with
  | none =>
    rw [State.takeCutIn_idle (by rw [line]; exact hc)]
    exact ⟨begun _ rfl, nofun⟩
  | some c =>
    have circuit : ((s.cutInPrepared l).line l).circuit = some c := by rw [line]; exact hc
    rcases h c hc with calling | parked
    · rw [State.takeCutIn_calling circuit calling]
      refine ⟨begun _ rfl, fun d hd => ⟨fun _ => by simp, fun parked => ?_⟩⟩
      cases hd
      cases calling.symm.trans parked
    · rw [State.takeCutIn_parked circuit parked]
      refine ⟨begun _ rfl, fun d hd => ⟨fun calling => ?_, fun _ => ?_⟩⟩
      · cases hd
        cases parked.symm.trans calling
      · rw [State.beginSending_line, circuit, hd]

theorem State.prepareCutIn_arbiter (s : State) (l : LineId) (i : Slot) : ((s.prepareCutIn l i).1.line l).arbiter
    = ⟨(s.line l).arbiter.phasePointer, .noTurn, 0, false, false⟩ := by
  cases air : s.unitOnAir l with
  | none => rw [State.prepareCutIn_takes air, (State.takeCutIn_fields ..).1, State.cutInPrepared_line]
  | some j =>
    rw [State.prepareCutIn_abandons air]
    dsimp only
    rw [State.abandonSending, State.restartFirst_line]
    show ((s.cutInTurn l).line l).arbiter = _
    rw [State.cutInTurn_line]

/-- The window or free part on air gives way to the cut-in (R110, R80, R119). -/
theorem State.prepareCutIn_abandoned (air : s.unitOnAir l = some j) :
    (s.prepareCutIn l i).2 = .bbroken ∧ ((s.prepareCutIn l i).1.line l).circuit = (s.line l).circuit
      ∧ (∀ q, s.part? j l = some q → (s.prepareCutIn l i).1.part? j l
        = some { q with state := .queued, formStep := 0, passMark := false })
      ∧ (j ∈ (s.line l).freeQueue →
        ((s.prepareCutIn l i).1.line l).freeQueue = j :: (s.line l).freeQueue.erase j) := by
  rw [State.prepareCutIn_abandons air]
  have spec := fun q (hq : (s.cutInTurn l).part? j l = some q) => State.abandonSending_spec hq
  obtain ⟨q, hq⟩ : ∃ q, s.part? j l = some q := by
    have found : s.partOnAir l j = true := List.find?_some air
    obtain ⟨q, hq, -⟩ := (Option.any_eq_true ..).mp found
    exact ⟨q, hq⟩
  obtain ⟨part, line, -⟩ := spec q hq
  rw [State.cutInTurn_line] at line
  refine ⟨rfl, by rw [line], fun q' hq' => ?_, fun mem => ?_⟩
  · cases hq.symm.trans hq'
    exact part
  · rw [line]
    exact if_pos mem

end Sys2Proof.Machine

namespace Sys2Proof.Machine

variable {l : LineId} {i j : Slot} {s t u : State} {c : Circuit} {p : State × Cycle}

/-! ## The choice reads the table, or leaves the phase pointer -/

/-- The choice of a line comes to a read of its interleave table (R105, R112, R113). -/
def State.readsTable (s : State) (l : LineId) : Prop :=
  ∃ c, (s.line l).circuit = some c ∧ c.serving ∧ ¬ s.keeps l c ∧ ¬ s.cuts c ∧ hasTraffic s l c
    ∧ s.bulletinOnAir l = none ∧ ¬ s.cutInReady l ∧ (s.line l).window.noticeStep = 0
    ∧ (s.line l).window.state = .isOpen ∧ (s.line l).arbiter.turn = .noTurn ∧ ¬ s.keepDue l c

theorem State.serveOperation_serveWindow (unclaimed : s.unclaimed l) (air : s.bulletinOnAir l = none)
    (unready : ¬ s.cutInReady l) (notice : (s.line l).window.noticeStep = 0) :
    s.serveOperation l = s.serveWindow l := by
  obtain ⟨cutIn, unit⟩ := State.bulletinOnAir_none.mp air
  rw [State.serveOperation_serveCutIn unclaimed (by rw [air]; nofun), State.serveCutIn_serveUnit cutIn unready,
    State.serveUnit_serveWindow unit notice]

theorem State.pointer_serveOperation_read (h : s.readsTable l) :
    (s.serveOperation l).1.pointer l = s.pointer l + 1 := by
  obtain ⟨c, hc, serving, keeps, cuts, traffic, air, unready, notice, opened, turn, due⟩ := h
  have unclaimed : s.unclaimed l := fun d hd => by
    cases hc.symm.trans hd
    exact ⟨State.not_operates_of_serving serving, keeps, cuts⟩
  rw [State.serveOperation_serveWindow unclaimed air unready notice,
    State.serveWindow_unitBoundary opened turn hc serving, State.unitBoundary_reads traffic due,
    State.pointer_readTable]

theorem State.pointer_serveCall (s : State) (l : LineId) : (s.serveCall l).1.pointer l = s.pointer l := by
  simp [State.pointer]

/-- At the window's source the phase pointer moves at a unit boundary with traffic and no keep due alone (R112). -/
theorem State.pointer_serveWindow (quiet : s.quiet l)
    (h : ∀ c, (s.line l).circuit = some c → c.serving → hasTraffic s l c → (s.line l).window.state = .isOpen →
      (s.line l).arbiter.turn = .noTurn → s.keepDue l c) : (s.serveWindow l).1.pointer l = s.pointer l := by
  by_cases opened : (s.line l).window.state = .isOpen
  swap
  · rw [State.serveWindow_closed opened, State.pointer_serveTraffic]
  cases turn : (s.line l).arbiter.turn with
  | telex => rw [State.serveWindow_begun (.inl turn), State.pointer_serveTraffic]
  | bulletin =>
    cases begun : (s.line l).arbiter.bBegun with
    | true => rw [State.serveWindow_begun (.inr ⟨turn, begun⟩), State.pointer_serveTraffic]
    | false =>
      rw [State.serveWindow_unitOfTurn opened turn begun]
      by_cases spent : s.windowSpent l
      · rw [State.unitOfTurn_closes spent, State.pointer_serveTraffic, State.pointer_closeWindow]
      · rw [State.unitOfTurn_begins spent, State.pointer_beginUnit]
        exact State.pointer_modArbiter s l fun _ => rfl
  | noTurn =>
    cases hc : (s.line l).circuit with
    | none =>
      rw [State.serveWindow_askWithoutCircuit opened turn hc]
      by_cases spent : s.windowSpent l
      · rw [State.askWithoutCircuit_closes spent, State.pointer_serveCall, State.pointer_closeWindow]
        exact State.pointer_modArbiter s l fun _ => rfl
      · rw [State.askWithoutCircuit_begins spent, State.pointer_beginUnit]
        exact State.pointer_modArbiter s l fun _ => rfl
    | some c =>
      have serving := quiet c hc
      rw [State.serveWindow_unitBoundary opened turn hc serving]
      by_cases traffic : hasTraffic s l c
      · rw [State.unitBoundary_keep traffic (h c hc serving traffic opened turn), State.pointer_handKeep]
        exact State.pointer_modArbiter s l fun _ => rfl
      · rw [State.unitBoundary_idle traffic, State.pointer_handTraffic]

theorem State.pointer_serveOperation_stands (h : ¬ s.readsTable l) :
    (s.serveOperation l).1.pointer l = s.pointer l := by
  have continued : ∀ i, (s.continueSending l i).1.pointer l = s.pointer l := fun i => by simp [State.pointer]
  by_cases unclaimed : s.unclaimed l
  swap
  · unfold State.unclaimed at unclaimed
    push Not at unclaimed
    obtain ⟨c, hc, claimed⟩ := unclaimed
    by_cases operates : s.operates l c
    · rw [State.serveOperation_operates hc operates, State.pointer_countedTurn, State.pointer_handOperation]
    by_cases keeps : s.keeps l c
    · rw [State.serveOperation_keeps hc keeps, State.pointer_handKeep]
    rw [State.serveOperation_cuts hc (claimed operates keeps), State.pointer_countedTurn, State.pointer_handCut]
  by_cases broken : ∃ i, s.bulletinOnAir l = some i ∧ s.isMarked i = true
  · obtain ⟨i, air, marked⟩ := broken
    rw [State.serveOperation_breakSending unclaimed air marked, State.pointer_breakSending]
  rw [State.serveOperation_serveCutIn unclaimed fun i air => by simpa using fun marked => broken ⟨i, air, marked⟩]
  cases cutIn : s.cutInOnAir l with
  | some i => rw [State.serveCutIn_onAir cutIn, continued]
  | none =>
  cases next : s.nextCutIn l with
  | some i =>
    rw [State.serveCutIn_ready cutIn next, State.pointer, State.prepareCutIn_arbiter]
    rfl
  | none =>
  have unready := State.nextCutIn_none_iff.mp next
  rw [State.serveCutIn_serveUnit cutIn unready]
  cases unit : s.unitOnAir l with
  | some i => rw [State.serveUnit_onAir unit, continued]
  | none =>
  by_cases notice : (s.line l).window.noticeStep = 0
  · rw [State.serveUnit_serveWindow unit notice]
    refine State.pointer_serveWindow (unclaimed.quiet unready) fun c hc serving traffic opened turn => ?_
    by_contra due
    exact h ⟨c, hc, serving, (unclaimed c hc).2.1, (unclaimed c hc).2.2, traffic,
      State.bulletinOnAir_none.mpr ⟨cutIn, unit⟩, unready, notice, opened, turn, due⟩
  · rw [State.serveUnit_notice unit notice, State.pointer_handNotice]

/-! ## What sources 1 to 3 hand -/

/-- An operation's cycle leaves the arbiter and the configuration (R24). -/
theorem State.handOperation_arbiter (s : State) (l : LineId) (c : Circuit) :
    ((s.handOperation l c).1.line l).arbiter = (s.line l).arbiter
      ∧ (s.handOperation l c).1.lineConfig l = s.lineConfig l := by
  refine ⟨?_, State.lineConfig_congr (State.fixed_fields (s.fixed_handOperation l c)).1.2.2.2.2.2.2 l⟩
  unfold State.handOperation
  split
  case h_4 => split <;> simp
  all_goals simp

/-- The cycle of an operation, with its count in the circuit (R24). -/
theorem State.handOperation_served (hc : (s.line l).circuit = some c) :
    (c.state = .calling → (s.handOperation l c).2 = .call c.ship
        ∧ ((s.handOperation l c).1.line l).circuit = some { c with callCycles := c.callCycles + 1 })
      ∧ (c.state = .aligning → (s.handOperation l c).2 = .align
        ∧ ((s.handOperation l c).1.line l).circuit = some c)
      ∧ (c.state = .identifying → (s.handOperation l c).2 = .ident
        ∧ ((s.handOperation l c).1.line l).circuit = some { c with identTries := c.identTries + 1 })
      ∧ (c.state = .rephasing → c.rephaseCycles < 2 → (s.handOperation l c).2 = .rephase
        ∧ ((s.handOperation l c).1.line l).circuit = some { c with rephaseCycles := c.rephaseCycles + 1 })
      ∧ (c.state = .rephasing → 2 ≤ c.rephaseCycles → (s.handOperation l c).2 = .align
        ∧ ((s.handOperation l c).1.line l).circuit = some c)
      ∧ (c.state = .clearing → (s.handOperation l c).2 = .clear
        ∧ ((s.handOperation l c).1.line l).circuit = some { c with clearCycles := c.clearCycles + 1 }) := by
  refine ⟨fun state => ?_, fun state => ?_, fun state => ?_, fun state first => ?_, fun state second => ?_,
    fun state => ?_⟩
  case refine_4 => simp [State.handOperation, state, first]
  case refine_5 => simp [State.handOperation, state, Nat.not_lt.mpr second, hc]
  all_goals simp [State.handOperation, state, hc]

/-- The part withdrawn by a broken end is gone (R85, R109). -/
theorem State.breakSending_clears (air : s.bulletinOnAir l = some i) :
    (s.breakSending l i).2 = .bbroken ∧ (s.breakSending l i).1.part? i l = none := by
  have onAir : s.partOnAir l i = true := by
    unfold State.bulletinOnAir at air
    split at air
    · next j found =>
      cases air
      exact List.find?_some (p := s.partOnAir l) found
    · exact List.find?_some (p := s.partOnAir l) air
  obtain ⟨q, hq, -⟩ := (Option.any_eq_true ..).mp onAir
  obtain ⟨r, -, hr, -⟩ := State.bulletin_of_part hq
  obtain ⟨r', hr', -, gone, -⟩ := State.withdrawPart_record hr l true
  have withdrawn : (s.withdrawPart i l true).part? i l = none := (State.part?_of_record hr' l).trans gone
  unfold State.breakSending
  dsimp only
  refine ⟨rfl, ?_⟩
  split
  · exact (PartsWithin.of_eq (State.partLines_unitEnds ..)).part?_none withdrawn
  · exact withdrawn

/-! ## What the open window hands -/

theorem Arbiter.endBTurn_turn {a : Arbiter} (h : a.turn ≠ .telex) : a.endBTurn.turn = .noTurn := by
  unfold Arbiter.endBTurn
  cases turn : a.turn with
  | noTurn => exact turn
  | telex => contradiction
  | bulletin => rfl

theorem Arbiter.endBTurn_of_noTurn {a : Arbiter} (h : a.turn = .noTurn) : a.endBTurn = a := by
  unfold Arbiter.endBTurn
  rw [h]

/-- A window that closes gives the cycle to the traffic (R101, R112). -/
theorem State.closeWindow_serveTraffic (t : State) (l : LineId) (turn : (t.line l).arbiter.turn ≠ .telex) :
    (((t.closeWindow l).serveTraffic l).1.line l).window
        = { (t.line l).window with state := .closed, unitsEnded := false }
      ∧ (((t.closeWindow l).serveTraffic l).1.line l).arbiter = (t.line l).arbiter.endBTurn
      ∧ ∀ s c, SameMessages l s t → (t.line l).circuit = some c → c.serving →
        trafficHanded s l c ((t.closeWindow l).serveTraffic l) := by
  have line := t.line_closeWindow l
  refine ⟨by rw [State.serveTraffic_window, line], ?_, fun s c same hc serving => ?_⟩
  · rw [State.serveTraffic_arbiter (by rw [line, Arbiter.endBTurn_turn turn]; nofun), line]
  · rw [State.serveTraffic_serving (by rw [line]; exact hc) serving, trafficHanded_countedTurn]
    exact State.handTraffic_handed (same.trans (.closeWindow t))

/-- The unit a B turn waits for (R112, R115). -/
theorem State.unitOfTurn_served (turn : (s.line l).arbiter.turn = .bulletin) :
    (¬ s.windowSpent l → unitBegun s l (s.unitOfTurn l)
        ∧ ((s.unitOfTurn l).1.line l).arbiter = { (s.line l).arbiter with bBegun := true })
      ∧ (s.windowSpent l →
        ((s.unitOfTurn l).1.line l).window = { (s.line l).window with state := .closed, unitsEnded := false }
          ∧ ((s.unitOfTurn l).1.line l).arbiter.turn = .noTurn
          ∧ ∀ c, (s.line l).circuit = some c → c.serving → trafficHanded s l c (s.unitOfTurn l)) := by
  refine ⟨fun unspent => ?_, fun spent => ?_⟩
  · rw [State.unitOfTurn_begins unspent, State.beginUnit_arbiter _ l (State.askWindow_of_unspent unspent),
      State.line_modArbiter]
    exact ⟨State.beginUnit_begun (.modArbiter s _), rfl⟩
  · have other : (s.line l).arbiter.turn ≠ .telex := by rw [turn]; nofun
    obtain ⟨window, arbiter, handed⟩ := s.closeWindow_serveTraffic l other
    rw [State.unitOfTurn_closes spent]
    exact ⟨window, by rw [arbiter, Arbiter.endBTurn_turn other], fun c => handed s c (.refl s)⟩

/-- The window asked on a line without a circuit (R112). -/
theorem State.askWithoutCircuit_served (turn : (s.line l).arbiter.turn = .noTurn) :
    ((s.askWithoutCircuit l).1.line l).arbiter = { (s.line l).arbiter with keepOffered := false }
      ∧ (¬ s.windowSpent l → unitBegun s l (s.askWithoutCircuit l))
      ∧ (s.windowSpent l → ((s.askWithoutCircuit l).1.line l).window
        = { (s.line l).window with state := .closed, unitsEnded := false }) := by
  by_cases spent : s.windowSpent l
  · rw [State.askWithoutCircuit_closes spent, (State.serveCall_fields ..).1, (State.serveCall_fields ..).2,
      State.line_closeWindow, State.line_modArbiter]
    exact ⟨Arbiter.endBTurn_of_noTurn turn, fun unspent => absurd spent unspent, fun _ => rfl⟩
  · rw [State.askWithoutCircuit_begins spent, State.beginUnit_arbiter _ l (State.askWindow_of_unspent spent),
      State.line_modArbiter]
    exact ⟨rfl, fun _ => State.beginUnit_begun (.modArbiter s _), fun h => absurd h spent⟩

/-- A read of a T entry (R113, R114). -/
theorem State.readTable_telex_served (entry : (s.lineConfig l).table[(s.line l).arbiter.phasePointer] = .telex) :
    trafficHanded s l c (s.readTable l c) ∧ ((s.readTable l c).1.line l).arbiter
      = { (s.line l).arbiter.read with turn := .telex, turnCycles := min (s.lineConfig l).turn 1 } := by
  rw [State.readTable_telex entry, trafficHanded_countedTurn, countedTurn_line]
  refine ⟨State.handTraffic_handed ((SameMessages.modArbiter s _).trans (.modArbiter _ _)), ?_⟩
  rw [(State.handTraffic_fields ..).1, State.handTraffic_lineConfig, State.line_modArbiter, State.line_modArbiter]
  exact Arbiter.counted_telex (a := { (s.line l).arbiter.read with turn := .telex, turnCycles := 0 }) rfl _

/-- A read of a B entry (R113, R51, R115). -/
theorem State.readTable_bulletin_served (hc : (s.line l).circuit = some c) (serving : c.serving)
    (turn : (s.line l).arbiter.turn = .noTurn)
    (entry : (s.lineConfig l).table[(s.line l).arbiter.phasePointer] = .bulletin) :
    (s.windowSpent l →
        ((s.readTable l c).1.line l).window = { (s.line l).window with state := .closed, unitsEnded := false }
          ∧ ((s.readTable l c).1.line l).arbiter = (s.line l).arbiter.read ∧ trafficHanded s l c (s.readTable l c))
      ∧ (¬ s.windowSpent l → c.state = .linked → (s.readTable l c).2 = .park
        ∧ ((s.readTable l c).1.line l).window = (s.line l).window
        ∧ ((s.readTable l c).1.line l).circuit = some { c with state := .parked, silenceCount := 0 }
        ∧ ((s.readTable l c).1.line l).arbiter
          = { (s.line l).arbiter.read with turn := .bulletin, bBegun := false })
      ∧ (¬ s.windowSpent l → c.state = .parked → unitBegun s l (s.readTable l c)
        ∧ ((s.readTable l c).1.line l).arbiter
          = { (s.line l).arbiter.read with turn := .bulletin, bBegun := true }) := by
  refine ⟨fun spent => ?_, fun unspent linked => ?_, fun unspent parked => ?_⟩
  · have line := s.line_modArbiter l Arbiter.read
    have still : ((s.modArbiter l Arbiter.read).line l).arbiter.turn = .noTurn := by rw [line]; exact turn
    obtain ⟨window, arbiter, handed⟩ :=
      (s.modArbiter l Arbiter.read).closeWindow_serveTraffic l (by rw [still]; nofun)
    rw [State.readTable_closes entry spent]
    refine ⟨by rw [window, line], ?_, handed s c (.modArbiter s _) (by rw [line]; exact hc) serving⟩
    rw [arbiter, Arbiter.endBTurn_of_noTurn still, line]
  · rw [State.readTable_parks entry unspent linked, State.handPark]
    simp [Circuit.toParked]
  · rw [State.readTable_begins entry unspent parked, State.beginUnit_arbiter _ l (State.askWindow_of_unspent unspent)]
    refine ⟨State.beginUnit_begun ((SameTraffic.modArbiter s _).trans (.modArbiter _ _)), ?_⟩
    rw [State.line_modArbiter, State.line_modArbiter]

/-- A unit boundary without traffic clears the circuit: linger is waived in an open window (R40, R60, R112). -/
theorem State.unitBoundary_clears (opened : (s.line l).window.state = .isOpen) (serving : c.serving)
    (none' : ¬ hasTraffic s l c) (uncut : ¬ cutWaits s c) :
    ((s.unitBoundary l c).1.line l).arbiter = (s.line l).arbiter
      ∧ clearHanded l { c with lingerCount := c.lingered } (s.unitBoundary l c) := by
  have waived : s.lingerWaived l = true := by rw [State.lingerWaived, opened]; simp
  rw [State.unitBoundary_idle none', State.handTraffic_idle serving none' uncut, State.handIdle_clears (.inl waived)]
  exact ⟨by rw [State.line_setCircuit], rfl, by rw [State.line_setCircuit]; rfl⟩

/-- A keep offered at a unit boundary (R57, R112). -/
theorem State.unitBoundary_kept (hc : (s.line l).circuit = some c) (traffic : hasTraffic s l c) (due : s.keepDue l c) :
    (s.unitBoundary l c).2 = .keep ∧ ((s.unitBoundary l c).1.line l).circuit = some c
      ∧ ((s.unitBoundary l c).1.line l).arbiter = { (s.line l).arbiter with keepOffered := true } := by
  rw [State.unitBoundary_keep traffic due]
  exact ⟨rfl, by simp [State.handKeep, hc], by simp [State.handKeep]⟩

/-! ## What sources 7 to 10 hand -/

/-- Circuit traffic, counted in a T turn (R114, R117). -/
theorem State.serveTraffic_served (hc : (s.line l).circuit = some c) (serving : c.serving) :
    trafficHanded s l c (s.serveTraffic l)
      ∧ ((s.serveTraffic l).1.line l).arbiter = (s.line l).arbiter.counted (s.lineConfig l).turn := by
  rw [State.serveTraffic_serving hc serving, trafficHanded_countedTurn, countedTurn_line,
    (State.handTraffic_fields ..).1, State.handTraffic_lineConfig]
  exact ⟨State.handTraffic_handed (.refl s), rfl⟩

/-- A circuit without traffic and without an open window lingers, and clears at the end of the linger (R40, R60). -/
theorem State.serveTraffic_lingers (hc : (s.line l).circuit = some c) (serving : c.serving)
    (unready : ¬ s.cutInReady l) (closed : (s.line l).window.state ≠ .isOpen)
    (none' : ¬ hasTraffic s l c) (uncut : ¬ cutWaits s c) :
    (c.lingered = (s.lineConfig l).linger → clearHanded l { c with lingerCount := c.lingered } (s.serveTraffic l))
      ∧ (c.lingered ≠ (s.lineConfig l).linger → (s.serveTraffic l).2 = .idleblock
        ∧ ((s.serveTraffic l).1.line l).circuit
          = some { c with state := .linked, lingerCount := c.lingered + 1 }) := by
  have kept : s.lingerWaived l = false := by
    rw [State.lingerWaived, State.nextCutIn_none_iff.mpr unready]
    simpa using closed
  rw [State.serveTraffic_serving hc serving, State.handTraffic_idle serving none' uncut]
  refine ⟨fun ranOut => ?_, fun more => ?_⟩
  · rw [State.handIdle_clears (.inr ranOut), clearHanded_countedTurn]
    exact ⟨rfl, by rw [State.line_setCircuit]; rfl⟩
  · rw [State.handIdle_lingers kept more]
    exact ⟨rfl, by rw [countedTurn_line, State.line_setCircuit]⟩

/-- An entry that may be called (R27). -/
def mayBeCalled (s : State) (e : Entry) : Prop :=
  e.retryHold = 0 ∧ ∃ i ∈ e.messages, ∃ r, s.record i = some r ∧ r.state = .ready

theorem State.isCallable_iff (s : State) (e : Entry) : s.isCallable e = true ↔ mayBeCalled s e := by
  simp [State.isCallable, mayBeCalled, State.oldestReady, State.isReady, Option.any_eq_true]

/-- A call starts to the first entry that may be called (R118, R30). -/
theorem State.serveCall_calls (none' : (s.line l).circuit = none) {a b : List Entry} {e : Entry}
    (calls : (s.line l).callList = a ++ e :: b) (he : mayBeCalled s e) (before : ∀ e' ∈ a, ¬ mayBeCalled s e') :
    (s.serveCall l).2 = .call e.ship
      ∧ ((s.serveCall l).1.line l).circuit = some (Circuit.newCall e.ship)
      ∧ ((s.serveCall l).1.line l).callList = (s.line l).callList.map fun e' =>
        if e'.ship = e.ship then { e' with recalled := false } else e' := by
  have first : s.callable? l = some e := by
    rw [State.callable?, none', calls]
    exact List.find?_eq_some_iff_append.mpr
      ⟨(s.isCallable_iff e).mpr he, a, b, rfl,
        fun e' mem => by simpa [← State.isCallable_iff] using before e' mem⟩
  rw [State.serveCall, first]
  simp [State.startCall, State.modEntry]

theorem State.serveCall_serveFree (none' : (s.line l).circuit = none)
    (h : ∀ e ∈ (s.line l).callList, ¬ mayBeCalled s e) : s.serveCall l = s.serveFree l := by
  have nothing : s.callable? l = none := by
    rw [State.callable?, none']
    exact List.find?_eq_none.mpr fun e mem => by rw [State.isCallable_iff]; exact h e mem
  rw [State.serveCall, nothing]

/-- A free bulletin begins (R119). -/
theorem State.serveFree_begins (first : firstWith (mayBeSent s l) (s.line l).freeQueue i) :
    sendingBegun s l i (s.serveFree l) := by
  rw [State.serveFree, State.nextFree_iff.mpr first]
  exact State.beginSending_begun rfl i

/-- FILLER, or the REST after the eighth (R12, R120). -/
theorem State.serveFree_filler (none' : (s.line l).circuit = none)
    (h : ∀ i ∈ (s.line l).freeQueue, ¬ mayBeSent s l i) :
    ((s.line l).fillerRun < 8 → (runEnded l (s.serveFree l)).2 = .filler
        ∧ (runEnded l (s.serveFree l)).1.line l = { s.line l with fillerRun := (s.line l).fillerRun + 1 })
      ∧ (8 ≤ (s.line l).fillerRun → (runEnded l (s.serveFree l)).2 = .unkeyed
        ∧ (runEnded l (s.serveFree l)).1.line l = { s.line l with fillerRun := 0, mode := .rest }) := by
  rw [State.serveFree, State.nextFree_none_iff.mpr h]
  dsimp only
  refine ⟨fun more => ?_, fun eight => ?_⟩
  · rw [State.serveFiller_filler more, runEnded_line]
    simp
  · have rest : s.serveFiller l = (s.modLine l fun x => { x with fillerRun := 0, mode := .rest }, .unkeyed) := by
      simp [State.serveFiller, Nat.not_lt.mpr eight, none']
    rw [rest, runEnded_line]
    simp
end Sys2Proof.Machine

namespace Sys2Proof.Machine

variable {l : LineId} {i j : Slot} {s t u : State} {c : Circuit} {p : State × Cycle}

/-! ## The end tests -/

/-- A T turn is over by the end tests (R114). -/
def State.turnOver (s : State) (l : LineId) : Prop :=
  (s.line l).circuit = none ∨ (s.line l).window.state ≠ .isOpen ∨ ∃ c, (s.line l).circuit = some c
    ∧ c.serving ∧ ((s.lineConfig l).turn ≤ (s.line l).arbiter.turnCycles ∨ ¬ hasTraffic s l c)

/-- The end tests end a T turn that is over, and nothing else (R114). -/
theorem State.endTests_cases (s : State) (l : LineId) :
    ((s.line l).arbiter.turn = .telex ∧ s.turnOver l ∧ s.endTests l = s.modArbiter l Arbiter.endTurn)
      ∨ (¬ ((s.line l).arbiter.turn = .telex ∧ s.turnOver l) ∧ s.endTests l = s) := by
  have test : ∀ c, ((c.state.inTraffic && (decide ((s.lineConfig l).turn ≤ (s.line l).arbiter.turnCycles)
        || !s.readyTraffic l c)) || decide ((s.line l).window.state ≠ .isOpen)) = true
      ↔ (s.line l).window.state ≠ .isOpen ∨ c.serving
        ∧ ((s.lineConfig l).turn ≤ (s.line l).arbiter.turnCycles ∨ ¬ hasTraffic s l c) := fun c => by
    rw [Bool.or_eq_true, Bool.and_eq_true, Circuit.inTraffic_iff, Bool.or_eq_true, decide_eq_true_iff,
      decide_eq_true_iff, ← State.readyTraffic_iff, Bool.not_eq_true', Bool.not_eq_true, or_comm]
  unfold State.endTests State.turnOver
  dsimp only
  cases hc : (s.line l).circuit with
  | none => by_cases turn : (s.line l).arbiter.turn = .telex <;> simp [turn]
  | some c =>
    dsimp only
    split
    · next h => exact .inl ⟨h.1, .inr (by simpa using (test c).mp h.2), rfl⟩
    · next h => exact .inr ⟨fun both => h ⟨both.1, (test c).mpr (by simpa using both.2)⟩, rfl⟩

theorem State.lineConfig_endTests (s : State) (l : LineId) : (s.endTests l).lineConfig l = s.lineConfig l :=
  State.lineConfig_congr (State.fixed_fields (s.fixed_endTests l)).1.2.2.2.2.2.2 l

/-! ## The silence step -/

/-- A parked circuit is answered, waits for an answer, or is lost at PARK-LIMIT (R53, R54). -/
theorem State.silenceStep_cases (hc : (s.line l).circuit = some c) (ended : Option Cycle) (o : Option Outcome) :
    (c.state ≠ .parked → s.silenceStep l ended o = s)
      ∧ (c.state = .parked → ((ended = some .park ∨ ended = some .keep) ∧ o = some .good) →
        s.silenceStep l ended o = s.setCircuit l (some { c with silenceCount := 0 }))
      ∧ (c.state = .parked → ¬ ((ended = some .park ∨ ended = some .keep) ∧ o = some .good) →
        (c.silenceCount + 1 < (s.lineConfig l).parkLimit → s.silenceStep l ended o
          = s.setCircuit l (some { c with silenceCount := c.silenceCount + 1 }))
        ∧ ((s.lineConfig l).parkLimit ≤ c.silenceCount + 1 → s.silenceStep l ended o = s.loseCircuit l true)) := by
  unfold State.silenceStep
  rw [hc]
  dsimp only
  refine ⟨fun h => if_neg h, fun parked answered => ?_, fun parked silent => ?_⟩
  · rw [if_pos parked, if_pos answered]
  · rw [if_pos parked, if_neg silent]
    exact ⟨fun below => if_pos below, fun limit => if_neg (Nat.not_lt.mpr limit)⟩

/-- Settles O60: down the chain of sources, the test of each gives the function that serves the line, and the lemma
on that function what it hands; a FILLER run ended leaves all of it but filler-run. -/
theorem activeLineServesFirstSource : Obligations.ActiveLineServesFirstSource := by
  refine ⟨fun l s => ?tests, fun l s => ?choice, fun l s c ended o hc => ?silence⟩
  case tests =>
    intro x v ends
    refine ⟨fun turn over' => ?_, fun stands => ?_⟩
    · rcases s.endTests_cases l with ⟨-, -, e⟩ | ⟨not', -⟩
      · have hv : v = s.modArbiter l Arbiter.endTurn := e
        rw [hv]
        exact ⟨State.line_modArbiter .., rfl, fun m hm => State.line_modLine_ne _ _ hm⟩
      · exact absurd ⟨turn, over'⟩ not'
    · rcases s.endTests_cases l with ⟨turn, over', -⟩ | ⟨-, e⟩
      · exact (stands.elim (fun h => h turn) fun h => h over').elim
      · exact e
  case silence =>
    obtain ⟨other, answered, silent⟩ := State.silenceStep_cases hc ended o
    intro t answers
    refine ⟨other, fun parked yes => ?_, fun parked no below => ?_, fun parked no limit => ?_⟩
    · have ht : t = _ := answered parked yes
      rw [ht, State.line_setCircuit]
    · have ht : t = _ := (silent parked no).1 below
      rw [ht, State.line_setCircuit]
    · have ht : t = _ := (silent parked no).2 limit
      rw [ht]
      exact ⟨State.loseCircuit_lost hc, (State.loseCircuit_line hc true).2⟩
  case choice =>
    intro v x config p y cutInReady serves operates keeps cuts reads
    have chosen : runEnded l (v.serveOperation l) = p := (s.chooseCycle_eq l).symm
    have settled : config = v.lineConfig l := (s.lineConfig_endTests l).symm
    generalize served : v.serveOperation l = q at chosen
    clear_value p config
    subst settled chosen
    obtain ⟨circuit, calls, frees, window, arbiter, -⟩ :
      y.circuit = (q.1.line l).circuit ∧ y.callList = (q.1.line l).callList ∧ y.freeQueue = (q.1.line l).freeQueue
        ∧ y.window = (q.1.line l).window ∧ y.arbiter = (q.1.line l).arbiter ∧ _ := runEnded_fields l q
    have pointer : y.arbiter.phasePointer = (v.serveOperation l).1.pointer l := by rw [arbiter, served]; rfl
    refine ⟨fun read => pointer.trans (State.pointer_serveOperation_read read),
      fun unread => pointer.trans (State.pointer_serveOperation_stands unread), fun c hc busy => ?operation,
      fun c hc kept => ?keep, fun c hc cut => ?cut,
      fun unclaimed => ⟨fun i air marked => ?broken, fun unmarked => ?below⟩⟩
    case operation =>
      obtain rfl := served.symm.trans (State.serveOperation_operates hc busy)
      obtain ⟨stands, same⟩ := v.handOperation_arbiter l c
      have counted : y.arbiter = x.arbiter.counted (v.lineConfig l).turn := by
        rw [arbiter, countedTurn_line, stands, same]
      rw [circuit, countedTurn_line]
      obtain ⟨calling, aligning, identifying, first, second, clearing⟩ := State.handOperation_served hc
      exact ⟨calling, aligning, identifying, first, second, clearing,
        fun telex => counted.trans (Arbiter.counted_telex telex _),
        fun other => counted.trans (Arbiter.counted_other other _)⟩
    case keep =>
      obtain rfl := served.symm.trans (State.serveOperation_keeps hc kept)
      refine ⟨rfl, runEnded_records .., ?_⟩
      show (runEnded l (v.handKeep l)).1.line l = _
      rw [runEnded_line, State.handKeep, State.line_modCounters]
      exact if_neg nofun
    case cut =>
      obtain rfl := served.symm.trans (State.serveOperation_cuts hc cut)
      exact cutHanded_runEnded.mpr (cutHanded_countedTurn.mpr (State.handCut_handed rfl c))
    case broken =>
      obtain rfl := served.symm.trans (State.serveOperation_breakSending unclaimed air marked)
      obtain ⟨cycle, gone⟩ := State.breakSending_clears air
      exact ⟨cycle, (runEnded_part ..).trans gone⟩
    have toCutIn := served.symm.trans (State.serveOperation_serveCutIn unclaimed unmarked)
    refine ⟨fun i air => ?cutInOn, fun off i first => ?cutIn, fun off unready => ?unit⟩
    case cutInOn =>
      obtain rfl := toCutIn.trans (State.serveCutIn_onAir air)
      exact sendingGoesOn_runEnded.mpr (v.continueSending_goesOn l i)
    case cutIn =>
      obtain rfl := toCutIn.trans (State.serveCutIn_ready off (State.nextCutIn_iff.mpr first))
      have ready : v.cutInReady l := by
        obtain ⟨a, b, queue, sends, -⟩ := first
        exact ⟨i, by rw [queue]; simp, sends⟩
      refine ⟨arbiter.trans (v.prepareCutIn_arbiter l i), fun j air => ?_, fun idle => ⟨?_, fun yields => ?_,
        fun c hc linked => ?_⟩⟩
      · obtain ⟨cycle, same, part, first⟩ := State.prepareCutIn_abandoned (i := i) air
        exact ⟨cycle, circuit.trans same, fun q hq => (runEnded_part ..).trans (part q hq),
          fun mem => frees.trans (first mem)⟩
      · rw [window, State.prepareCutIn_takes idle, (State.takeCutIn_fields ..).2.1, State.cutInPrepared_line]
      · obtain ⟨begun, circuits⟩ := State.prepareCutIn_begins (i := i) idle yields
        have same : ((v.prepareCutIn l i).1.line l).callList = x.callList := by
          rw [State.prepareCutIn_takes idle, (State.takeCutIn_fields ..).2.2, State.cutInPrepared_line]
        exact ⟨sendingBegun_runEnded.mpr begun, fun c hc =>
          ⟨fun calling => ⟨circuit.trans ((circuits c hc).1 calling), calls.trans same⟩,
            fun parked => circuit.trans ((circuits c hc).2 parked)⟩⟩
      · obtain ⟨clears, parks⟩ := State.prepareCutIn_linked (i := i) idle hc linked ready
        exact ⟨fun none' => clearHanded_runEnded.mpr (clears none'),
          fun traffic => ⟨(parks traffic).1, circuit.trans (parks traffic).2⟩⟩
    have toUnit := toCutIn.trans (State.serveCutIn_serveUnit off unready)
    refine ⟨fun i air => ?unitOn, fun idle notice => ?notice, fun idle fresh => ?window⟩
    case unitOn =>
      obtain rfl := toUnit.trans (State.serveUnit_onAir air)
      exact sendingGoesOn_runEnded.mpr (v.continueSending_goesOn l i)
    case notice =>
      obtain rfl := toUnit.trans (State.serveUnit_notice idle notice)
      exact ⟨rfl, by rw [window, State.handNotice, State.line_modWindow]⟩
    have toWindow := toUnit.trans (State.serveUnit_serveWindow idle fresh)
    refine ⟨fun opened turn waits => ?unitOfTurn, fun opened turn none' => ?without,
      fun c opened turn hc serving => ?boundary, fun c reached hc serving => ?traffic, fun shut none' => ?last⟩
    case unitOfTurn =>
      obtain rfl := toWindow.trans (State.serveWindow_unitOfTurn opened turn waits)
      obtain ⟨begins, closes⟩ := State.unitOfTurn_served turn
      refine ⟨fun unspent => ?_, fun spent => ?_⟩
      · obtain ⟨begun, bBegun⟩ := begins unspent
        exact ⟨unitBegun_runEnded.mpr begun, arbiter.trans bBegun⟩
      · obtain ⟨shut, over', handed⟩ := closes spent
        exact ⟨window.trans shut, (congrArg Arbiter.turn arbiter).trans over', fun c hc serving =>
          trafficHanded_runEnded.mpr (handed c hc serving)⟩
    case without =>
      obtain rfl := toWindow.trans (State.serveWindow_askWithoutCircuit opened turn none')
      obtain ⟨offers, begins, closes⟩ := State.askWithoutCircuit_served turn
      exact ⟨arbiter.trans offers, fun unspent => unitBegun_runEnded.mpr (begins unspent),
        fun spent => window.trans (closes spent)⟩
    case boundary =>
      have toBoundary := toWindow.trans (State.serveWindow_unitBoundary opened turn hc serving)
      intro due entry read
      refine ⟨fun none' uncut => ?_, fun traffic keep => ?_, fun traffic later telex => ?_,
        fun traffic later bulletin => ?_⟩
      · obtain rfl := toBoundary
        obtain ⟨stands, clears⟩ := State.unitBoundary_clears opened serving none' uncut
        exact ⟨arbiter.trans stands, clearHanded_runEnded.mpr clears⟩
      · obtain rfl := toBoundary
        obtain ⟨cycle, same, offered⟩ := State.unitBoundary_kept hc traffic keep
        exact ⟨cycle, circuit.trans same, arbiter.trans offered⟩
      · obtain rfl := toBoundary.trans (State.unitBoundary_reads traffic later)
        obtain ⟨handed, begun⟩ := State.readTable_telex_served (c := c) telex
        exact ⟨trafficHanded_runEnded.mpr handed, arbiter.trans begun⟩
      · obtain rfl := toBoundary.trans (State.unitBoundary_reads traffic later)
        obtain ⟨closes, parks, begins⟩ := State.readTable_bulletin_served hc serving turn bulletin
        refine ⟨fun spent => ?_, fun unspent linked => ?_, fun unspent parked => ?_⟩
        · obtain ⟨shut, moved, handed⟩ := closes spent
          exact ⟨window.trans shut, arbiter.trans moved, trafficHanded_runEnded.mpr handed⟩
        · obtain ⟨cycle, stands, parked, begun⟩ := parks unspent linked
          exact ⟨cycle, window.trans stands, circuit.trans parked, arbiter.trans begun⟩
        · obtain ⟨begun, bBegun⟩ := begins unspent parked
          exact ⟨unitBegun_runEnded.mpr begun, arbiter.trans bBegun⟩
    case traffic =>
      have toTraffic : v.serveWindow l = v.serveTraffic l :=
        reached.elim State.serveWindow_closed fun telex => State.serveWindow_begun (.inl telex)
      obtain rfl := toWindow.trans toTraffic
      obtain ⟨handed, counted⟩ := State.serveTraffic_served hc serving
      refine ⟨trafficHanded_runEnded.mpr handed, fun telex => ?_, fun shut none' uncut => ?_⟩
      · rw [arbiter, counted, Arbiter.counted_telex telex]
      · obtain ⟨clears, lingers⟩ := State.serveTraffic_lingers hc serving unready shut none' uncut
        exact ⟨fun ranOut => clearHanded_runEnded.mpr (clears ranOut),
          fun more => ⟨(lingers more).1, circuit.trans (lingers more).2⟩⟩
    case last =>
      have toCall := toWindow.trans ((State.serveWindow_closed shut).trans (State.serveTraffic_serveCall none'))
      refine ⟨fun a e b list called before => ?_, fun uncalled => ⟨fun i first => ?_, fun nothing => ?_⟩⟩
      · obtain rfl := toCall
        obtain ⟨cycle, begun, unrecalled⟩ := State.serveCall_calls none' list called before
        exact ⟨cycle, circuit.trans begun, calls.trans unrecalled⟩
      · obtain rfl := toCall.trans (State.serveCall_serveFree none' uncalled)
        exact sendingBegun_runEnded.mpr (State.serveFree_begins first)
      · obtain rfl := toCall.trans (State.serveCall_serveFree none' uncalled)
        exact State.serveFree_filler none' nothing
end Sys2Proof.Machine

namespace Sys2Proof.Machine

variable {s t u : State} {l : LineId}

/-! ## Counters that rise within their range -/

/-- The second value of a counter may follow the first without a reset: it is no lower, and it leaves the range of
R131 only where the first had. -/
structure Rises (a b : Nat) : Prop where
  le : a ≤ b
  bounded : a ≤ Config.counterLimit → b ≤ Config.counterLimit

theorem Rises.refl (a : Nat) : Rises a a := ⟨le_rfl, id⟩

theorem Rises.trans {a b c : Nat} (h1 : Rises a b) (h2 : Rises b c) : Rises a c :=
  ⟨h1.le.trans h2.le, h2.bounded ∘ h1.bounded⟩

theorem Rises.bump (a : Nat) : Rises a (bump a) := by
  refine ⟨?_, bump_le⟩
  unfold Machine.bump
  split <;> omega

/-- Every counter of a line may follow its value without a reset. -/
structure LineCounters.Rise (c d : LineCounters) : Prop where
  blocksSent : Rises c.blocksSent d.blocksSent
  repeats : Rises c.repeats d.repeats
  circuitsLinked : Rises c.circuitsLinked d.circuitsLinked
  circuitsLost : Rises c.circuitsLost d.circuitsLost
  callsFailed : Rises c.callsFailed d.callsFailed
  bulletinSendings : Rises c.bulletinSendings d.bulletinSendings
  keepsSent : Rises c.keepsSent d.keepsSent
  windowsAbsorbed : Rises c.windowsAbsorbed d.windowsAbsorbed

/-- Every card counter may follow its value without a reset. -/
structure CardCounters.Rise (c d : CardCounters) : Prop where
  badFrames : Rises c.badFrames d.badFrames
  rankRefused : Rises c.rankRefused d.rankRefused
  framesDiscarded : Rises c.framesDiscarded d.framesDiscarded
  claimsWon : Rises c.claimsWon d.claimsWon
  claimsLost : Rises c.claimsLost d.claimsLost

theorem LineCounters.Rise.refl (c : LineCounters) : c.Rise c :=
  ⟨.refl _, .refl _, .refl _, .refl _, .refl _, .refl _, .refl _, .refl _⟩

theorem CardCounters.Rise.refl (c : CardCounters) : c.Rise c := ⟨.refl _, .refl _, .refl _, .refl _, .refl _⟩

theorem LineCounters.Rise.trans {c d e : LineCounters} (h1 : c.Rise d) (h2 : d.Rise e) : c.Rise e where
  blocksSent := h1.blocksSent.trans h2.blocksSent
  repeats := h1.repeats.trans h2.repeats
  circuitsLinked := h1.circuitsLinked.trans h2.circuitsLinked
  circuitsLost := h1.circuitsLost.trans h2.circuitsLost
  callsFailed := h1.callsFailed.trans h2.callsFailed
  bulletinSendings := h1.bulletinSendings.trans h2.bulletinSendings
  keepsSent := h1.keepsSent.trans h2.keepsSent
  windowsAbsorbed := h1.windowsAbsorbed.trans h2.windowsAbsorbed

theorem CardCounters.Rise.trans {c d e : CardCounters} (h1 : c.Rise d) (h2 : d.Rise e) : c.Rise e where
  badFrames := h1.badFrames.trans h2.badFrames
  rankRefused := h1.rankRefused.trans h2.rankRefused
  framesDiscarded := h1.framesDiscarded.trans h2.framesDiscarded
  claimsWon := h1.claimsWon.trans h2.claimsWon
  claimsLost := h1.claimsLost.trans h2.claimsLost

theorem LineCounters.Rise.le {c d : LineCounters} (h : c.Rise d) : c.le d :=
  ⟨h.blocksSent.le, h.repeats.le, h.circuitsLinked.le, h.circuitsLost.le, h.callsFailed.le, h.bulletinSendings.le,
    h.keepsSent.le, h.windowsAbsorbed.le⟩

theorem CardCounters.Rise.le {c d : CardCounters} (h : c.Rise d) : c.le d :=
  ⟨h.badFrames.le, h.rankRefused.le, h.framesDiscarded.le, h.claimsWon.le, h.claimsLost.le⟩

theorem LineCounters.Rise.bounded {c d : LineCounters} (h : c.Rise d) : c.bounded → d.bounded :=
  fun ⟨blocks, repeats, linked, lost, failed, sendings, keeps, absorbed⟩ =>
    ⟨h.blocksSent.bounded blocks, h.repeats.bounded repeats, h.circuitsLinked.bounded linked,
      h.circuitsLost.bounded lost, h.callsFailed.bounded failed, h.bulletinSendings.bounded sendings,
      h.keepsSent.bounded keeps, h.windowsAbsorbed.bounded absorbed⟩

theorem CardCounters.Rise.bounded {c d : CardCounters} (h : c.Rise d) : c.bounded → d.bounded :=
  fun ⟨bad, refused, discarded, won, lost⟩ =>
    ⟨h.badFrames.bounded bad, h.rankRefused.bounded refused, h.framesDiscarded.bounded discarded,
      h.claimsWon.bounded won, h.claimsLost.bounded lost⟩

/-- Between two cards every counter rises. The rules below go forward: what has counted up to a card has counted up
to the card an operation makes of it, so that each proof reads as the operation's definition does. -/
structure Counts (s t : State) : Prop where
  card : s.counters.Rise t.counters
  lines : ∀ l, (s.line l).counters.Rise (t.line l).counters

theorem Counts.refl (s : State) : Counts s s := ⟨.refl _, fun _ => .refl _⟩

theorem Counts.countersBounded (h : Counts s t) (range : s.countersBounded) : t.countersBounded :=
  ⟨h.card.bounded range.1, fun l => (h.lines l).bounded (range.2 l)⟩

/-- A change of other fields. -/
theorem Counts.same (h : Counts s t) (card : u.counters = t.counters) (lines : u.lines = t.lines) : Counts s u :=
  ⟨card ▸ h.card, fun l => State.line_congr lines l ▸ h.lines l⟩

/-- A change of a line by which its counters rise. -/
theorem Counts.riseLine {f : Line → Line} (h : Counts s t) (rise : ∀ x : Line, x.counters.Rise (f x).counters) :
    Counts s (t.modLine l f) where
  card := h.card
  lines m := by
    by_cases hm : m = l
    · subst hm
      rw [State.line_modLine_self]
      exact (h.lines m).trans (rise _)
    · rw [State.line_modLine_ne _ _ hm]
      exact h.lines m

/-- A change of a line apart from its counters. -/
theorem Counts.modLine {f : Line → Line} (h : Counts s t) (same : ∀ x, (f x).counters = x.counters) :
    Counts s (t.modLine l f) :=
  h.riseLine fun x => same x ▸ .refl _

theorem Counts.modCounters {f : LineCounters → LineCounters} (h : Counts s t) (rise : ∀ c : LineCounters, c.Rise (f c)) :
    Counts s (t.modCounters l f) :=
  h.riseLine fun x => rise x.counters

theorem Counts.riseCard (h : Counts s t) (rise : t.counters.Rise u.counters) (lines : u.lines = t.lines) :
    Counts s u :=
  ⟨h.card.trans rise, fun l => State.line_congr lines l ▸ h.lines l⟩

theorem Counts.setCircuit (h : Counts s t) (c : Option Circuit) : Counts s (t.setCircuit l c) :=
  h.modLine fun _ => rfl

theorem Counts.modWindow (h : Counts s t) (f : Window → Window) : Counts s (t.modWindow l f) :=
  h.modLine fun _ => rfl

theorem Counts.modArbiter (h : Counts s t) (f : Arbiter → Arbiter) : Counts s (t.modArbiter l f) :=
  h.modLine fun _ => rfl

theorem Counts.modRecord (h : Counts s t) (i : Slot) (f : Record → Record) : Counts s (t.modRecord i f) :=
  h.same rfl rfl

theorem Counts.setRecord (h : Counts s t) (i : Slot) (r : Option Record) : Counts s (t.setRecord i r) :=
  h.same rfl rfl

theorem Counts.addReport {i : Slot} {item : ReportItem} (h : Counts s t) : Counts s (t.addReport i item) :=
  h.same rfl rfl

/-- A card with what goes with it: the cycle it hands, or the result of an order. -/
theorem Counts.fst {α : Type} {a : α} (h : Counts s t) : Counts s (t, a).1 := h

/-- One branch or the other. -/
theorem Counts.ite {p : Prop} [Decidable p] {v : State} (yes : Counts s u) (no : Counts s v) :
    Counts s (if p then u else v) :=
  iteInduction (fun _ => yes) fun _ => no

/-! ## The store and the port -/

theorem Counts.returnPages (h : Counts s t) (i : Slot) : Counts s (t.returnPages i) :=
  h.same (by rw [State.returnPages_frame]) (by rw [State.returnPages_frame])

theorem Counts.endWork (h : Counts s t) (i : Slot) : Counts s (t.endWork i) := (h.returnPages i).modRecord i _

theorem Counts.freeIfSpent (h : Counts s t) (i : Slot) : Counts s (t.freeIfSpent i) := by
  rcases t.freeIfSpent_cases i with e | ⟨_, -, -, -, e⟩
  · rwa [e]
  · exact e ▸ h.setRecord i none

theorem Counts.bumpLost (h : Counts s t) : Counts s t.bumpLost :=
  h.riseCard { CardCounters.Rise.refl t.counters with claimsLost := .bump _ } rfl

theorem Counts.bumpBad (h : Counts s t) : Counts s t.bumpBad :=
  h.riseCard { CardCounters.Rise.refl t.counters with badFrames := .bump _ } rfl

theorem Counts.bumpRefused (h : Counts s t) : Counts s t.bumpRefused :=
  h.riseCard { CardCounters.Rise.refl t.counters with rankRefused := .bump _ } rfl

theorem Counts.bumpDiscarded (h : Counts s t) : Counts s t.bumpDiscarded :=
  h.riseCard { CardCounters.Rise.refl t.counters with framesDiscarded := .bump _ } rfl

theorem Counts.tellDiscard {p : Payload} (h : Counts s t) : Counts s (t.tellDiscard p) := by
  obtain ⟨-, -, lines, -, -, counters⟩ := t.tellDiscard_frame p
  exact h.same counters lines

theorem Counts.offerFrame {f : Frame} (h : Counts s t) : Counts s (t.offerFrame f) := by
  rcases t.offerFrame_cases f with ⟨-, e⟩ | ⟨-, -, e⟩ | ⟨j, x, -, -, -, e⟩
  · exact e ▸ h.same rfl rfl
  · exact e ▸ h.bumpDiscarded.tellDiscard
  · exact e ▸ Counts.tellDiscard (h.bumpDiscarded.same rfl rfl)

theorem Counts.handReport (h : Counts s t) : Counts s t.handReport := by
  obtain ⟨-, lines, -, counters⟩ := t.handReport_frame
  exact h.same counters lines

theorem Counts.handReports (h : Counts s t) : Counts s t.handReports :=
  State.handReports_keeps (P := Counts s) (fun _ => .handReport) t h

/-! ## Entries and messages -/

theorem Counts.modEntry (h : Counts s t) (ship : Nat) (f : Entry → Entry) : Counts s (t.modEntry l ship f) :=
  h.modLine fun _ => rfl

theorem Counts.freeEntry (h : Counts s t) (ship : Nat) : Counts s (t.freeEntry l ship) := h.modLine fun _ => rfl

theorem Counts.freeEmptyEntry (h : Counts s t) (ship : Nat) : Counts s (t.freeEmptyEntry l ship) :=
  h.modLine fun _ => rfl

theorem Counts.entryToTail (h : Counts s t) (ship : Nat) (f : Entry → Entry) : Counts s (t.entryToTail l ship f) := by
  rw [State.entryToTail_eq]
  exact h.modLine fun _ => rfl

theorem Counts.entryToHead (h : Counts s t) (ship : Nat) (f : Entry → Entry) : Counts s (t.entryToHead l ship f) := by
  rw [State.entryToHead_eq]
  exact h.modLine fun _ => rfl

theorem Counts.leaveEntry (h : Counts s t) (i : Slot) : Counts s (t.leaveEntry i) := by
  rcases t.leaveEntry_cases i with e | ⟨r, x, m, hr, hb, hm⟩
  · rwa [e]
  · rw [State.leaveEntry_eq hr hb hm]
    exact h.modLine fun _ => rfl

theorem Counts.finishTelex (h : Counts s t) (i : Slot) (item : ReportItem) : Counts s (t.finishTelex i item) :=
  ((h.endWork i).leaveEntry i).addReport

theorem Counts.dropTaken (h : Counts s t) (i : Slot) : Counts s (t.dropTaken i) :=
  (((h.returnPages i).leaveEntry i).setRecord i none).bumpLost

theorem Counts.returnMessages (reason : Reason) (is : List Slot) :
    ∀ {t : State}, Counts s t → Counts s (t.returnMessages reason is) := by
  induction is with
  | nil => exact id
  | cons i rest ih => exact fun h => ih ((h.endWork i).addReport)

theorem Counts.countAttempt (h : Counts s t) (ship : Nat) (reason : Reason) :
    Counts s (t.countAttempt l ship reason) := by
  unfold State.countAttempt
  split
  · exact h
  · exact .ite ((h.freeEntry ship).returnMessages reason _) (.ite (h.freeEntry ship) (h.entryToTail ship _))

theorem Counts.placeMessage {i : Slot} {ship : Nat} {band : Band} (h : Counts s t)
    (placed : t.placeMessage l i ship band = some u) : Counts s u := by
  unfold State.placeMessage at placed
  split at placed
  · cases placed
    exact h.modEntry ship _
  · split at placed
    · cases placed
    · cases placed
      exact h.modLine fun _ => rfl

/-! ## Bulletins and the window -/

theorem Counts.leaveQueues (h : Counts s t) (i : Slot) : Counts s (t.leaveQueues l i) := h.modLine fun _ => rfl

theorem Counts.leaveAllQueues (h : Counts s t) (i : Slot) : Counts s (t.leaveAllQueues i) :=
  List.foldlRecOn lineIds _ h fun _ hv _ _ => hv.leaveQueues i

theorem Counts.joinQueue (h : Counts s t) (i : Slot) (kind : ClassType) (cls : Nat) :
    Counts s (t.joinQueue l i kind cls) :=
  h.modLine fun _ => by cases kind <;> rfl

theorem Counts.modPart (h : Counts s t) (i : Slot) (m : LineId) (f : Part → Part) : Counts s (t.modPart i m f) :=
  h.modRecord i _

theorem Counts.addBsent (h : Counts s t) (i : Slot) (m : LineId) (rem : Remaining) :
    Counts s (t.addBsent i m rem) :=
  .ite (h.same rfl rfl) h.addReport

theorem Counts.closeWindow (h : Counts s t) : Counts s (t.closeWindow l) :=
  have cleared : Counts s (t.clearPassMarks l) := List.foldlRecOn _ _ h fun _ hv i _ => hv.modPart i l _
  cleared.modLine fun _ => rfl

theorem Counts.unitEnds (h : Counts s t) : Counts s (t.unitEnds l) := by
  have ended : Counts s (t.modLine l fun x => { x with
      window := { x.window with unitsEnded := true }, arbiter := x.arbiter.endBTurn }) := h.modLine fun _ => rfl
  unfold State.unitEnds
  dsimp only
  split
  · split
    · exact ended
    · exact ended.closeWindow
  · exact h

theorem Counts.finishWithdrawal (h : Counts s t) (i : Slot) : Counts s (t.finishWithdrawal i) :=
  Counts.addReport ((h.endWork i).same rfl rfl)

theorem Counts.finishIfWithdrawn (h : Counts s t) (i : Slot) : Counts s (t.finishIfWithdrawn i) := by
  unfold State.finishIfWithdrawn
  split
  · exact h
  · exact .ite (h.finishWithdrawal i) h

theorem Counts.withdrawPart (h : Counts s t) (i : Slot) (cut : Bool) : Counts s (t.withdrawPart i l cut) :=
  ((h.leaveQueues i).modRecord i _).finishIfWithdrawn i

theorem Counts.retireIfDone (h : Counts s t) (i : Slot) : Counts s (t.retireIfDone i) := by
  unfold State.retireIfDone
  split
  · exact h
  · exact .ite h ((h.endWork i).freeIfSpent i)

theorem Counts.beginSending (h : Counts s t) (i : Slot) : Counts s (t.beginSending l i).1 := by
  unfold State.beginSending
  dsimp only
  split <;> exact h.modPart i l _

theorem Counts.continueSending (h : Counts s t) (i : Slot) : Counts s (t.continueSending l i).1 := by
  unfold State.continueSending
  dsimp only
  split <;> exact h.modPart i l _

theorem Counts.requeue (h : Counts s t) (i : Slot) (kind : ClassType) (finished : Bool) :
    Counts s (t.requeue l i kind finished) := by
  unfold State.requeue
  split
  · exact h.leaveQueues i
  · split
    · exact h
    · exact (h.leaveQueues i).joinQueue i .cutIn 0
    · exact (h.leaveQueues i).joinQueue i .free 0
    · exact h

theorem Counts.completeSending (h : Counts s t) (i : Slot) : Counts s (t.completeSending l i) := by
  unfold State.completeSending
  split
  · next p b _ _ =>
    have requeued := (h.modPart i l fun p => p.completed b.kind).requeue (l := l) i b.kind (p.remaining.less = .times 0)
    have counted := requeued.modCounters (l := l) (f := fun c => { c with bulletinSendings := bump c.bulletinSendings })
      fun c => { LineCounters.Rise.refl c with bulletinSendings := .bump _ }
    have told := counted.addBsent i l p.remaining.less
    exact Counts.retireIfDone (.ite told.unitEnds told) i
  · exact h

theorem Counts.restartFirst (h : Counts s t) (i : Slot) : Counts s (t.restartFirst l i) := by
  unfold State.restartFirst
  exact h.modLine fun _ => by split <;> rfl

theorem Counts.abandonSending (h : Counts s t) (i : Slot) : Counts s (t.abandonSending l i) :=
  (h.modPart i l _).restartFirst i

theorem Counts.stopSending (h : Counts s t) (i : Slot) : Counts s (t.stopSending l i) :=
  .ite (h.withdrawPart i true) (h.abandonSending i)

theorem Counts.breakSending (h : Counts s t) (i : Slot) : Counts s (t.breakSending l i).1 :=
  .ite (h.withdrawPart i true).unitEnds (h.withdrawPart i true)

theorem Counts.removeAllWithdrawn (h : Counts s t) : Counts s (t.removeAllWithdrawn l) :=
  List.foldlRecOn slots _ h fun _ hv i _ => .ite (hv.withdrawPart i false) hv

theorem Counts.conflictPart (h : Counts s t) (i : Slot) : Counts s (t.conflictPart l i) := by
  unfold State.conflictPart
  split
  · have discarded : Counts s (t.discardBsent i l) := h.same rfl rfl
    have dropped := (discarded.leaveQueues (l := l) i).modRecord i fun r => r.dropPart l
    exact .ite (discarded.withdrawPart i true)
      (.ite (Counts.endWork (.ite dropped dropped.addReport) i)
        (Counts.retireIfDone (.ite dropped dropped.addReport) i))
  · exact h

theorem Counts.endOfMessage (h : Counts s t) (i : Slot) : Counts s (t.endOfMessage l i) := h.modWindow _

/-! ## The circuit -/

theorem Counts.releaseMessage (h : Counts s t) (i : Slot) : Counts s (t.releaseMessage i) :=
  .ite (.ite (h.finishTelex i _) (h.modRecord i _)) h

theorem Counts.releaseCurrent (h : Counts s t) (c : Circuit) : Counts s (t.releaseCurrent c) := by
  unfold State.releaseCurrent
  split
  · exact h
  · exact h.releaseMessage _

theorem Counts.endCurrent (h : Counts s t) (c : Circuit) : Counts s (t.endCurrent l c) := by
  unfold State.endCurrent
  split
  · exact h
  · exact (h.releaseMessage _).endOfMessage _

theorem Counts.loseCircuit (h : Counts s t) (attempt : Bool) : Counts s (t.loseCircuit l attempt) := by
  unfold State.loseCircuit
  split
  · exact h
  · next c _ =>
    have lost := (h.setCircuit (l := l) none).modCounters (l := l)
      (f := fun n => { n with circuitsLost := bump n.circuitsLost })
      fun n => { LineCounters.Rise.refl n with circuitsLost := .bump _ }
    exact .ite ((lost.endCurrent c).countAttempt c.ship .lost) (lost.endCurrent c)

theorem Counts.placeCleared (h : Counts s t) (ship : Nat) (failed : Bool) :
    Counts s (t.placeCleared l ship failed) := by
  unfold State.placeCleared
  split
  · exact h
  · exact .ite (h.freeEntry ship) (.ite (h.entryToHead ship _) (.ite h (h.entryToTail ship id)))

/-- The circuit of a failed call or clear is gone, and the attempt counted (R31, R45, R49). -/
theorem Counts.failCall (h : Counts s t) (ship : Nat) (reason : Reason) :
    Counts s (((t.setCircuit l none).modCounters l fun n => { n with callsFailed := bump n.callsFailed }).countAttempt l
      ship reason) := by
  have counted := (h.setCircuit (l := l) none).modCounters (l := l)
    (f := fun n => { n with callsFailed := bump n.callsFailed })
    fun n => { LineCounters.Rise.refl n with callsFailed := .bump _ }
  exact counted.countAttempt ship reason

theorem Counts.completeClear (h : Counts s t) (c : Circuit) : Counts s (t.completeClear l c) := by
  unfold State.completeClear
  dsimp only
  split
  · exact (h.setCircuit none).placeCleared c.ship false
  · exact (h.failCall c.ship _).placeCleared c.ship true

theorem Counts.settleCall (h : Counts s t) (c : Circuit) (o : Outcome) : Counts s (t.settleCall l c o) :=
  .ite (h.setCircuit _) (.ite h (h.failCall c.ship .noAnswer))

theorem Counts.settleIdent (h : Counts s t) (c : Circuit) (o : Outcome) : Counts s (t.settleIdent l c o) := by
  unfold State.settleIdent
  split
  · exact .ite
      ((h.setCircuit _).modCounters fun n => { LineCounters.Rise.refl n with circuitsLinked := .bump _ })
      (h.setCircuit _)
  · exact .ite h (h.setCircuit _)

theorem Counts.notAcknowledged (h : Counts s t) (c : Circuit) (isBlock : Bool) :
    Counts s (t.notAcknowledged l c isBlock) := by
  have counted : Counts s (if isBlock then t.modCounters l fun n => { n with repeats := bump n.repeats } else t) :=
    .ite (h.modCounters fun n => { LineCounters.Rise.refl n with repeats := .bump _ }) h
  exact .ite (counted.setCircuit _) (.ite (counted.setCircuit _) ((counted.setCircuit _).loseCircuit true))

theorem Counts.deliver (h : Counts s t) (c : Circuit) (i : Slot) (clearAfter : Bool) :
    Counts s (t.deliver l c i clearAfter) := by
  have delivered := (((h.finishTelex i .delivered).setCircuit (l := l) (some { c with current := none })).modEntry (l := l)
    c.ship fun e => { e with attempts := 0 }).endOfMessage (l := l) i
  exact .ite (delivered.setCircuit _) delivered

theorem Counts.blockGood (h : Counts s t) (c : Circuit) (i : Slot) : Counts s (t.blockGood l c i) := by
  unfold State.blockGood
  split
  · exact h
  · have acknowledged := fun f => (h.modRecord i f).setCircuit (l := l) (some c.acknowledged)
    exact .ite ((acknowledged _).deliver _ i _) (acknowledged _)

theorem Counts.settleBlock (h : Counts s t) (c : Circuit) (o : Outcome) : Counts s (t.settleBlock l c o) := by
  unfold State.settleBlock
  split
  · split
    · exact h.setCircuit _
    · next i _ => exact .ite (((h.finishTelex i _).setCircuit _).endOfMessage i) (h.blockGood c i)
  · exact h.notAcknowledged c true

theorem Counts.settleIdle (h : Counts s t) (c : Circuit) (o : Outcome) : Counts s (t.settleIdle l c o) :=
  .ite (h.setCircuit _) (h.notAcknowledged c false)

theorem Counts.settleRephase (h : Counts s t) (c : Circuit) (o : Outcome) : Counts s (t.settleRephase l c o) :=
  .ite (h.setCircuit _) (.ite (h.setCircuit _) (h.loseCircuit true))

theorem Counts.settleCircuit (h : Counts s t) (c : Circuit) (ended : Cycle) (o : Outcome) :
    Counts s (t.settleCircuit l c ended o) := by
  unfold State.settleCircuit
  split
  · exact h.settleCall c o
  · exact h.setCircuit _
  · exact h.settleIdent c o
  · exact h.settleBlock c o
  · exact h.settleIdle c o
  · exact h.setCircuit _
  · exact h.settleRephase c o
  · exact .ite h (h.completeClear c)
  · exact h

theorem Counts.silenceStep (h : Counts s t) (ended : Option Cycle) (o : Option Outcome) :
    Counts s (t.silenceStep l ended o) := by
  unfold State.silenceStep
  split
  · exact h
  · exact .ite (.ite (h.setCircuit _) (.ite (h.setCircuit _) (h.loseCircuit true))) h

theorem Counts.emptiedCheck (h : Counts s t) : Counts s (t.emptiedCheck l) := by
  unfold State.emptiedCheck
  split
  · exact h
  · split
    · split
      · exact (h.setCircuit none).freeEntry _
      · exact h.setCircuit _
      · exact h.setCircuit _
      all_goals exact h
    · exact h

theorem Counts.stopCircuit (h : Counts s t) : Counts s (t.stopCircuit l) := by
  unfold State.stopCircuit
  split
  · exact h
  · next c _ =>
    have ended := ((h.setCircuit (l := l) none).releaseCurrent c).freeEmptyEntry (l := l) c.ship
    split
    · exact ended
    · exact ended
    · exact ended
    · exact ended
    · exact h.setCircuit _
    · exact h
    · exact h.completeClear c

/-! ## The interleaver -/

theorem Counts.handKeep (h : Counts s t) : Counts s (t.handKeep l).1 :=
  Counts.fst (h.modCounters fun n => { LineCounters.Rise.refl n with keepsSent := .bump _ })

theorem Counts.bumpBlocks (h : Counts s t) : Counts s (t.bumpBlocks l) :=
  h.modCounters fun n => { LineCounters.Rise.refl n with blocksSent := .bump _ }

theorem Counts.handOperation (h : Counts s t) (c : Circuit) : Counts s (t.handOperation l c).1 := by
  unfold State.handOperation
  split
  · exact h.setCircuit _
  · exact h
  · exact h.setCircuit _
  · split
    · exact h.setCircuit _
    · exact h
  · exact h.setCircuit _
  · exact h
  · exact h

theorem Counts.handCut (h : Counts s t) (c : Circuit) : Counts s (t.handCut l c).1 := (h.setCircuit _).bumpBlocks

theorem Counts.handBlock (h : Counts s t) (c : Circuit) (i : Slot) : Counts s (t.handBlock l c i).1 := by
  unfold State.handBlock
  split
  · exact h
  · exact ((h.modRecord i _).setCircuit _).bumpBlocks

theorem Counts.handIdle (h : Counts s t) (c : Circuit) : Counts s (t.handIdle l c).1 := by
  unfold State.handIdle
  split <;> exact h.setCircuit _

theorem Counts.handTraffic (h : Counts s t) (c : Circuit) : Counts s (t.handTraffic l c).1 := by
  unfold State.handTraffic
  split
  · exact h.handCut c
  · split
    · exact h.handBlock c _
    · split <;> exact h.handIdle _

theorem Counts.countedTurn {p : State × Cycle} (h : Counts s p.1) : Counts s (countedTurn l p).1 :=
  Counts.fst (h.modArbiter _)

theorem Counts.serveFiller (h : Counts s t) : Counts s (t.serveFiller l).1 := by
  unfold State.serveFiller
  dsimp only
  split
  · exact Counts.fst (h.modLine fun _ => rfl)
  · split
    · exact Counts.fst (h.modLine fun _ => rfl)
    · exact h

theorem Counts.serveCall (h : Counts s t) : Counts s (t.serveCall l).1 := by
  unfold State.serveCall
  split
  · exact (h.setCircuit _).modEntry _ _
  · unfold State.serveFree
    split
    · exact h.beginSending _
    · exact h.serveFiller

theorem Counts.serveTraffic (h : Counts s t) : Counts s (t.serveTraffic l).1 := by
  unfold State.serveTraffic
  split
  · next c _ =>
    split
    · exact (h.handTraffic c).countedTurn
    · exact h.serveCall
  · exact h.serveCall

theorem Counts.handNotice (h : Counts s t) : Counts s (t.handNotice l).1 := Counts.fst (h.modWindow _)

theorem Counts.beginUnit (h : Counts s t) (answer : WindowAnswer) : Counts s (t.beginUnit l answer).1 := by
  cases answer with
  | part i => exact h.beginSending i
  | notice => exact h.handNotice
  | nothing => exact h.serveTraffic

theorem Counts.readTable (h : Counts s t) (c : Circuit) : Counts s (t.readTable l c).1 := by
  have read := h.modArbiter (l := l) fun a =>
    { a with phasePointer := (t.line l).arbiter.phasePointer + 1, keepOffered := false }
  unfold State.readTable
  dsimp only
  split
  · exact ((read.modArbiter _).handTraffic c).countedTurn
  · split
    · exact read.closeWindow.serveTraffic
    · split
      · exact (read.modArbiter _).setCircuit _
      · exact (read.modArbiter _).beginUnit _

theorem Counts.unitBoundary (h : Counts s t) (c : Circuit) : Counts s (t.unitBoundary l c).1 := by
  unfold State.unitBoundary
  split
  · exact h.handTraffic c
  · split
    · exact (h.modArbiter _).handKeep
    · exact h.readTable c

theorem Counts.askWithoutCircuit (h : Counts s t) : Counts s (t.askWithoutCircuit l).1 := by
  have asked := h.modArbiter (l := l) fun a => { a with keepOffered := false }
  unfold State.askWithoutCircuit
  dsimp only
  split
  · exact asked.closeWindow.serveCall
  · exact asked.beginUnit _

theorem Counts.unitOfTurn (h : Counts s t) : Counts s (t.unitOfTurn l).1 := by
  unfold State.unitOfTurn
  split
  · exact h.closeWindow.serveTraffic
  · exact (h.modArbiter _).beginUnit _

theorem Counts.serveWindow (h : Counts s t) : Counts s (t.serveWindow l).1 := by
  unfold State.serveWindow
  dsimp only
  split
  · split
    · exact h.serveTraffic
    · split
      · exact h.serveTraffic
      · exact h.unitOfTurn
    · split
      · exact h.askWithoutCircuit
      · split
        · exact h.unitBoundary _
        · exact h.serveTraffic
  · exact h.serveTraffic

theorem Counts.serveUnit (h : Counts s t) : Counts s (t.serveUnit l).1 := by
  unfold State.serveUnit
  split
  · exact h.continueSending _
  · split
    · exact h.serveWindow
    · exact h.handNotice

theorem Counts.prepareCutIn (h : Counts s t) (i : Slot) : Counts s (t.prepareCutIn l i).1 := by
  have ended := h.modArbiter (l := l) fun a => { a.endTurn with keepOffered := false }
  unfold State.prepareCutIn
  dsimp only
  split
  · exact ended.abandonSending _
  · have dropped := ended.modWindow (l := l) fun w => { w with noticeStep := 0 }
    split
    · exact dropped.beginSending i
    · next c _ =>
      split
      · exact (dropped.setCircuit none).beginSending i
      · split
        · exact dropped.setCircuit _
        · exact dropped.handIdle c
      all_goals exact dropped.beginSending i

theorem Counts.serveCutIn (h : Counts s t) : Counts s (t.serveCutIn l).1 := by
  unfold State.serveCutIn
  split
  · exact h.continueSending _
  · split
    · exact h.prepareCutIn _
    · exact h.serveUnit

theorem Counts.serveCut (h : Counts s t) : Counts s (t.serveCut l).1 := by
  unfold State.serveCut
  split
  · exact (h.handCut _).countedTurn
  · split
    · exact h.breakSending _
    · exact h.serveCutIn

theorem Counts.serveOperation (h : Counts s t) : Counts s (t.serveOperation l).1 := by
  unfold State.serveOperation
  split
  · exact (h.handOperation _).countedTurn
  · unfold State.serveKeep
    split
    · exact h.handKeep
    · exact h.serveCut

theorem Counts.chooseCycle (h : Counts s t) : Counts s (t.chooseCycle l).1 := by
  have ended : Counts s (t.endTests l) := .ite (h.modArbiter _) h
  exact .ite ended.serveOperation (ended.serveOperation.modLine fun _ => rfl)

/-! ## A boundary -/

theorem Counts.settle (h : Counts s t) (ended : Option Cycle) (o : Option Outcome) :
    Counts s (t.settle l ended o) := by
  have heard : Counts s (t.modLine l fun x => { x with outcome := none }) := h.modLine fun _ => rfl
  unfold State.settle
  dsimp only
  split
  · exact heard
  · split
    · exact heard.completeSending _
    · exact heard
  · exact .ite heard (heard.modWindow _).unitEnds
  · split
    · exact heard
    · exact heard.settleCircuit _ _ _

theorem Counts.openPending (h : Counts s t) : Counts s (t.openPending l) := by
  unfold State.openPending
  split
  · split <;> exact h.modWindow _
  · exact h

theorem Counts.perBoundary (h : Counts s t) (before : List Entry) (ended : Option Cycle) (o : Option Outcome) :
    Counts s (t.perBoundary l before ended o) :=
  have held : Counts s (t.decreaseHolds l before) := h.modLine fun _ => rfl
  ((((held.silenceStep ended o).emptiedCheck).removeAllWithdrawn).modWindow _).openPending

theorem Counts.worked (h : Counts s t) : Counts s (t.worked l) := (h.settle _ _).perBoundary _ _ _

theorem Counts.stopKeying (h : Counts s t) (m : Mode) : Counts s (t.stopKeying l m) := by
  unfold State.stopKeying
  refine Counts.modLine (Counts.stopCircuit (Counts.modWindow ?_ _)) fun _ => rfl
  split
  · exact h.stopSending _
  · exact h

theorem Counts.silenceCheck (h : Counts s t) : Counts s (t.silenceCheck l) := by
  have stopped : Counts s (if t.silencedLine l then t.stopKeying l .silent else t) := .ite (h.stopKeying .silent) h
  unfold State.silenceCheck
  split
  · exact stopped
  · exact stopped
  · exact stopped
  · exact stopped
  · exact .ite h (h.modLine fun _ => rfl)
  · exact h
  · exact h

theorem Counts.actOrder {order : LineOrder} (h : Counts s t) : Counts s (t.actOrder l order).1 := by
  cases order with
  | stop =>
    dsimp only [State.actOrder]
    split
    · exact h.stopKeying .stopped
    · exact h.stopKeying .stopped
    · exact h.stopKeying .stopped
    · exact h.stopKeying .stopped
    · exact h.stopKeying .stopped
    · exact h
    · exact h
  | start => exact .ite (h.modLine fun _ => rfl) h
  | patternOn =>
    dsimp only [State.actOrder]
    split
    · exact Counts.fst (h.modLine fun _ => rfl)
    · exact h
  | patternOff => exact .ite (h.modLine fun _ => rfl) h

theorem Counts.modeStep (h : Counts s t) : Counts s (t.modeStep l).1 := by
  have ordered : Counts s ((t.silenceCheck l).orderStep l).1 := by
    unfold State.orderStep
    split
    · exact h.silenceCheck
    · exact Counts.actOrder (h.silenceCheck.modLine fun _ => rfl)
  exact .ite (ordered.modLine fun _ => rfl) ordered

theorem Counts.choice (h : Counts s t) : Counts s (t.choice l).1 := by
  unfold State.choice
  split
  · exact h
  · exact h
  · exact h
  · exact h
  · exact Counts.fst (h.modLine fun _ => rfl)
  · unfold State.restCheck
    split
    · exact Counts.fst (h.modLine fun _ => rfl)
    · exact h
  · exact h.chooseCycle

theorem Counts.answer (h : Counts s t) (m : Mode) (order : Option (Station × OrderResult)) :
    Counts s (t.answer l m order) := by
  have silence : ∀ dest, Counts s
      ((t.modLine l fun x => { x with silenceAnswer := none }).offerLineState l dest m .accepted) :=
    fun _ => Counts.offerFrame (h.modLine fun _ => rfl)
  unfold State.answer
  cases (t.line l).silenceAnswer with
  | none =>
    cases order with
    | none => exact h
    | some p => exact h.offerFrame
  | some dest =>
    cases order with
    | none => exact silence dest
    | some p => exact (silence dest).offerFrame

theorem Counts.finish (h : Counts s t) (m : Mode) (order : Option (Station × OrderResult)) (c : Cycle) :
    Counts s (t.finish l m order c) := by
  rw [State.finish, State.handOver]
  exact (h.handReports.answer m order).modLine fun _ => rfl

theorem Counts.boundary (h : Counts s t) : Counts s (t.boundary l) := by
  have chosen : Counts s (t.chosen l).1 := by
    rw [State.chosen_eq, State.stepped_eq]
    exact h.worked.modeStep.choice
  rw [State.boundary_eq]
  exact chosen.finish _ _ _

/-! ## The commands of the store -/

theorem Counts.endLoading (h : Counts s t) (i : Slot) (item : ReportItem) : Counts s (t.endLoading i item) := by
  unfold State.endLoading
  split
  · exact h
  · split
    · exact h.finishTelex i item
    · exact (((h.endWork i).leaveAllQueues i).modRecord i _).addReport

theorem Counts.loadChunk (h : Counts s t) (i : Slot) (r : Record) (seq : Nat) (chunk : List Byte) :
    Counts s (t.loadChunk i r seq chunk) :=
  .ite h (.ite (h.same rfl rfl) (h.endLoading i _).handReports)

theorem Counts.takeText (h : Counts s t) (hd : Header) (key : Key) (seq : Nat) (chunk : List Byte) :
    Counts s (t.takeText hd key seq chunk) := by
  unfold State.takeText
  split
  · exact h
  · next i _ =>
    split
    · exact h
    · next r _ =>
      split
      · split
        · exact .ite (h.loadChunk i r seq chunk) (.ite h (h.dropTaken i))
        · exact .ite (h.loadChunk i r seq chunk) h
      · exact h

theorem Counts.endClaim {k : Key} {i : Slot} (h : Counts s t) : Counts s (t.endClaim k i) :=
  Counts.bumpLost (((h.returnPages i).setRecord i none).same rfl rfl)

theorem Counts.abortClaim (h : Counts s t) (w : ClaimWindow) : Counts s (t.abortClaim w) :=
  Counts.endClaim (.ite h (h.same rfl rfl))

theorem Counts.abortAllClaims (h : Counts s t) : Counts s t.abortAllClaims :=
  Counts.handReports (List.foldlRecOn t.claims _ h fun _ hv w _ => hv.abortClaim w)

theorem Counts.withdrawRecord (h : Counts s t) (i : Slot) (r : Record) : Counts s (t.withdrawRecord i r) := by
  unfold State.withdrawRecord
  split
  · split
    · exact h.endClaim
    · exact (h.finishTelex i _).handReports
    · exact (h.finishTelex i _).handReports
    · exact h.modRecord i _
    · exact h
  · split
    · exact (h.endLoading i _).handReports
    · exact h.modRecord i _
    all_goals exact h

theorem Counts.createRecord {k : Key} {n : Nat} {st : RecordState} {timer : Bool} {b : Body} {i : Slot}
    (h : Counts s t) (created : t.createRecord k n st timer b = some (i, u)) : Counts s u := by
  unfold State.createRecord at created
  split at created
  · split at created
    · cases created
    · cases created
      exact h.same rfl rfl
  · cases created

theorem Counts.sendTake {key : Key} {i : Slot} (h : Counts s t) : Counts s (t.sendTake key i) :=
  (h.modRecord i _).offerFrame

theorem Counts.evaluateOffer (h : Counts s t) (key : Key) (ship n : Nat) (band : Band) (clearAfter : Bool) :
    Counts s (t.evaluateOffer key ship n band clearAfter) := by
  unfold State.evaluateOffer
  split
  · split
    · exact h
    · next created => exact Counts.offerFrame ((h.createRecord created).same rfl rfl)
  · exact h

theorem Counts.takeOffer (h : Counts s t) (key : Key) (ship n : Nat) (band : Band) (clearAfter : Bool) :
    Counts s (t.takeOffer key ship n band clearAfter) := by
  unfold State.takeOffer
  split
  · exact h.evaluateOffer key ship n band clearAfter
  · next i _ _ =>
    split
    · exact h
    · split
      · exact h
      · exact h
      all_goals exact .ite h h.sendTake

theorem Counts.winClaim (h : Counts s t) :
    Counts s { t with counters := { t.counters with claimsWon := bump t.counters.claimsWon } } :=
  h.riseCard { CardCounters.Rise.refl t.counters with claimsWon := .bump _ } rfl

theorem Counts.takeMessage (h : Counts s t) (w : ClaimWindow) : Counts s (t.takeMessage w) := by
  have lost := h.endClaim (k := w.key) (i := w.slot)
  unfold State.takeMessage
  split
  · exact lost
  · split
    · exact lost
    · split
      · exact lost
      · next placed =>
        exact Counts.winClaim (Counts.sendTake ((h.placeMessage placed).same rfl rfl))

theorem Counts.resolveClaim (h : Counts s t) (w : ClaimWindow) : Counts s (t.resolveClaim w) :=
  .ite (h.abortClaim w).handReports (.ite (h.takeMessage w) h.endClaim)

theorem Counts.takeFromOther (h : Counts s t) (source : Station) (key : Key) :
    Counts s (t.takeFromOther source key) := by
  unfold State.takeFromOther
  split
  · exact h
  · next i _ _ =>
    split
    · exact h
    · split
      · split
        · exact (h.abortClaim _).handReports
        · exact h
      · exact .ite (h.dropTaken i) h
      all_goals exact h

theorem Counts.takeEcho (h : Counts s t) (key : Key) : Counts s (t.takeEcho key) := by
  unfold State.takeEcho
  split
  · exact h.modRecord _ _
  · exact h

theorem Counts.answerQuery (h : Counts s t) (dest : Station) (selector : Nat) :
    Counts s (t.answerQuery dest selector) := by
  unfold State.answerQuery
  split
  · exact h.offerFrame
  · split
    · exact h.offerFrame
    · exact h

theorem Counts.acceptPost (h : Counts s t) (key : Key) (cls : Fin 16) (n : Nat) (targets : List LineId) :
    Counts s (t.acceptPost key cls n targets) := by
  unfold State.acceptPost
  dsimp only
  split
  · exact h.offerFrame
  · next i _ created =>
    exact List.foldlRecOn targets _ (h.createRecord created) fun _ hv _ _ => hv.joinQueue i _ _

theorem Counts.takePost (h : Counts s t) (key : Key) (cls : Fin 16) (n : Nat) (channels : List (Fin 1024)) :
    Counts s (t.takePost key cls n channels) := by
  unfold State.takePost
  split
  · exact h
  · split
    · exact h
    · split
      · exact h.offerFrame
      · exact h.acceptPost key cls n _

/-! ## The clock, the orders and ANNOUNCE -/

theorem Counts.takeOpening (h : Counts s t) : Counts s (t.takeOpening l) :=
  .ite h (.ite (h.modWindow _)
    (h.modCounters fun n => { LineCounters.Rise.refl n with windowsAbsorbed := .bump _ }))

theorem Counts.handOpenings {ls : List LineId} (h : Counts s t) : Counts s (t.handOpenings ls) :=
  List.foldlRecOn lineIds _ h fun _ hv _ _ => .ite hv.takeOpening hv

/-- The marks of the times falling due are set, and their openings handed (R89, R93). -/
theorem Counts.openDue {due : Nat → Bool} {ls : List LineId} (h : Counts s t) :
    Counts s ((t.setMarks due).handOpenings ls) :=
  Counts.handOpenings (h.same rfl rfl)

theorem Counts.advanceMinute (h : Counts s t) : Counts s t.advanceMinute := by
  have minute : Counts s { t with minute := t.minute + 1 } := h.same rfl rfl
  have cleared : Counts s (if t.minute + 1 = 0 then ({ t with minute := t.minute + 1 } : State).clearMarks
      else { t with minute := t.minute + 1 }) := .ite (minute.same rfl rfl) minute
  exact .ite cleared.openDue cleared

theorem Counts.secondPasses (h : Counts s t) : Counts s t.secondPasses :=
  .ite (Counts.advanceMinute (h.same rfl rfl)) (h.same rfl rfl)

theorem Counts.dueWork (h : Counts s t) (new : Nat) : Counts s (t.dueWork new) := by
  unfold State.dueWork
  dsimp only
  split
  · exact h.openDue
  · split
    · exact h
    · exact Counts.openDue (h.same rfl rfl)

theorem Counts.setClock (h : Counts s t) (minute second : Nat) : Counts s (t.setClock minute second) := by
  have due : Counts s (if t.timeValid then t.dueWork minute else t) := .ite (h.dueWork minute) h
  unfold State.setClock
  split
  · exact due.same rfl rfl
  · exact h

theorem Counts.takeOrder (h : Counts s t) (order : LineOrder) (source : Station) :
    Counts s (t.takeOrder l order source) := by
  unfold State.takeOrder
  split
  · exact h.offerFrame
  · split
    · exact h.modLine fun _ => rfl
    · exact h.offerFrame

/-- A change of every line apart from its counters. -/
theorem Counts.allLines (h : Counts s t) (card : u.counters = t.counters)
    (lines : ∀ m, (u.line m).counters = (t.line m).counters) : Counts s u :=
  ⟨card ▸ h.card, fun m => lines m ▸ h.lines m⟩

theorem Counts.leaveAnswers {mask : BandMask} {source : Station} (h : Counts s t) :
    Counts s (t.leaveAnswers mask source) :=
  h.allLines rfl fun m => by
    rw [State.leaveAnswers, State.line_mapLines]
    split <;> rfl

theorem Counts.meet (h : Counts s t) (source : Station) (a : Announcement) : Counts s (t.meet source a) := by
  have known : Counts s { t with known := addKnown t.known source } := h.same rfl rfl
  exact .ite (known.offerFrame) known

theorem Counts.adopt (h : Counts s t) (a : Announcement) : Counts s (t.adopt a) := by
  have joined : Counts s { t with silenced := t.silenced ||| a.silenced } := h.same rfl rfl
  exact .ite (.ite (joined.setClock _ _) joined) h

theorem Counts.loseChannel (h : Counts s t) : Counts s (t.loseChannel l) := by
  have disabled : Counts s (t.modLine l Line.disable) := h.modLine fun _ => rfl
  unfold State.loseChannel
  dsimp only
  split
  · exact disabled
  · exact disabled.offerFrame

theorem Counts.moveEntry (h : Counts s t) (e : Entry) : Counts s (t.moveEntry e) := by
  unfold State.moveEntry
  split
  · next m _ =>
    have joined : Counts s (t.modLine m fun x => { x with callList := x.callList ++ [{ e with recalled := false }] }) :=
      h.modLine fun _ => rfl
    exact List.foldlRecOn e.messages _ joined fun _ hv i _ => hv.modRecord i _
  · exact h.returnMessages .conflict e.messages

theorem Counts.giveUpTraffic (h : Counts s t) : Counts s (t.giveUpTraffic l) :=
  have lost := h.loseCircuit (l := l) false
  have moved : Counts s ((t.loseCircuit l false).moveEntries l) :=
    List.foldlRecOn _ _ (lost.modLine fun _ => rfl) fun _ hv e _ => hv.moveEntry e
  List.foldlRecOn slots _ moved fun _ hv i _ => hv.conflictPart i

theorem Counts.conflicts (h : Counts s t) (source : Station) (a : Announcement) : Counts s (t.conflicts source a) :=
  .ite (List.foldlRecOn lineIds _ h fun _ hv _ _ => .ite hv.loseChannel.giveUpTraffic hv) h

theorem Counts.takeAnnounce (h : Counts s t) (source : Station) (a : Announcement) :
    Counts s (t.takeAnnounce source a) :=
  .ite h (((h.meet source a).adopt a).conflicts source a).handReports

/-! ## The commands -/

theorem Counts.settleConfig {c : CardConfig} (h : Counts s t) : Counts s (t.settleConfig c) :=
  h.allLines rfl fun m => by simp [State.settleConfig, State.line]

theorem Counts.settleFault (h : Counts s t) : Counts s t.settleFault :=
  h.allLines rfl fun m => by simp [State.settleFault, State.line]

theorem Counts.receive {act : State → State} (h : Counts s (act s)) (k : FrameKind) (hd : Header) (poster : Station)
    (ok : Bool) : Counts s (s.receive k hd poster ok act) :=
  State.receive_keeps (.refl s) (Counts.refl s).bumpBad (Counts.refl s).bumpRefused h k hd poster ok

/-- The commands that set every counter to 0 (R131). -/
def resetsCounters : Instr → Bool
  | .pinReset _ | .restart _ => true
  | _ => false

/-- A command that is no reset lowers no counter and takes none out of its range. -/
theorem exec_counts {c : Instr} (h : resetsCounters c = false) (run : exec c s = .next t) : Counts s t := by
  have here := Counts.refl s
  cases c with
  | pinReset | restart => cases h
  | configurationReadEnd result =>
    cases run
    refine .ite ?_ here
    split
    · exact here.settleConfig.offerFrame
    · exact here.settleFault.offerFrame
  | startIntervalExpiry => cases run; exact here.same rfl rfl
  | boundary l => cases run; exact .ite here.boundary here
  | outcomeRecord l =>
    cases run
    refine here.modLine fun x => ?_
    obtain ⟨kept, e⟩ := x.takeOutcome_eq (readTag _) (readOutcome _ _)
    rw [e]
  | secondTimerExpiry => cases run; exact .ite here.secondPasses here
  | time => cases run; exact .receive (here.setClock _ _) ..
  | loadTimerExpiry key =>
    cases run
    split
    · exact .ite (here.endLoading _ _).handReports here
    · exact here
  | claimWindowExpiry key =>
    cases run
    split
    · exact here.resolveClaim _
    · exact here
  | offer => cases run; exact .receive (here.takeOffer ..) ..
  | claim => cases run; exact .receive (here.same rfl rfl) ..
  | takeReceived => 
    cases run
    refine .receive ?_ ..
    split
    · exact here.takeEcho _
    · exact here.takeFromOther _ _
  | text => cases run; exact .receive (here.takeText ..) ..
  | post => cases run; exact .receive (here.takePost ..) ..
  | withdraw hd key =>
    cases run
    refine .receive ?_ ..
    split
    · exact here.withdrawRecord _ _
    · exact here
  | silence hd mask =>
    cases run
    exact .receive (act := fun s => ({ s with silenced := s.silenced ||| mask } : State).leaveAnswers mask _)
      (Counts.leaveAnswers (here.same rfl rfl)) ..
  | resume hd mask =>
    cases run
    exact .receive (act := fun s => ({ s with silenced := s.silenced &&& ~~~mask } : State).leaveAnswers mask _)
      (Counts.leaveAnswers (here.same rfl rfl)) ..
  | stopLine | startLine | patternOn | patternOff => cases run; exact .receive (here.takeOrder _ _) ..
  | announce => cases run; exact .receive (here.takeAnnounce _ _) ..
  | statusQuery => cases run; exact .receive (here.answerQuery _ _) ..
  | badFrame check =>
    cases run
    refine .ite ?_ here
    cases check with
    | crc => exact here.bumpBad.abortAllClaims
    | kind | length | source => exact here.bumpBad
  | ignoredFrame => cases run; exact here
  | contention => cases run; exact .ite here (here.same rfl rfl)
  | contentionLost | sendingCutShort => cases run; exact here.same rfl rfl
  | sendingComplete => cases run; exact .ite (Counts.handReports (here.same rfl rfl)) here
  | reportHanded => cases run; exact here.handReport

/-! ## The resets -/

/-- Every counter of the card stands at 0. -/
def State.countersZero (s : State) : Prop := s.counters = .zero ∧ ∀ l, (s.line l).counters = .zero

theorem State.countersZero.bounded (h : s.countersZero) : s.countersBounded := by
  obtain ⟨card, lines⟩ := h
  refine ⟨?_, fun l => ?_⟩
  · rw [card]
    unfold CardCounters.bounded
    decide
  · rw [lines]
    unfold LineCounters.bounded
    decide

theorem State.reset_countersZero (pending : List Instr) (strap : Station) :
    ({ State.reset with pending := pending, strap := strap } : State).countersZero :=
  ⟨rfl, fun l => by simp [State.line, State.reset, Line.reset]⟩

theorem State.restarted_countersZero (s : State) : s.restarted.countersZero :=
  ⟨rfl, fun _ => congrArg Line.counters (vecOf_get ..)⟩

theorem State.restartRecord_queue (s : State) (i : Slot) : (s.restartRecord i).queue = s.queue := by
  have ended : (s.endWork i).queue = s.queue := by rw [State.endWork_frame]
  have pages : (s.returnPages i).queue = s.queue := by rw [State.returnPages_frame]
  unfold State.restartRecord
  split
  · rfl
  · split
    · exact pages
    · simp [ended]
    · simp [ended]
    · simp [ended]
    · rcases State.freeIfSpent_cases ((s.discardBsents i).modRecord i fun r =>
        r.modBulletin fun b => { b with parts := [] }) i with e | ⟨_, -, -, -, e⟩ <;> rw [e] <;> rfl

/-- RESTART keeps the transmit queue (R184). -/
theorem State.restarted_queue (s : State) : s.restarted.queue = s.queue := by
  have records : (slots.foldl State.restartRecord s).queue = s.queue :=
    List.foldlRecOn slots State.restartRecord (motive := fun u => u.queue = s.queue) rfl
      fun u hu i _ => (u.restartRecord_queue i).trans hu
  unfold State.restarted
  generalize slots.foldl State.restartRecord s = u at records ⊢
  exact records

/-- A queue with room takes a frame without a discard (R172). -/
theorem State.offerFrame_countersZero (h : s.countersZero) (room : s.queue.length < Config.queueLimit) (f : Frame) :
    (s.offerFrame f).countersZero := by
  rcases s.offerFrame_cases f with ⟨-, e⟩ | ⟨full, -⟩ | ⟨-, -, full, -⟩
  · rw [e]; exact h
  · exact absurd room (Nat.not_lt.mpr full)
  · exact absurd room (Nat.not_lt.mpr full)

theorem State.handReports_countersZero (h : s.countersZero) : s.handReports.countersZero :=
  State.handReports_keeps (P := State.countersZero)
    (fun t ht => by
      obtain ⟨-, lines, -, counters⟩ := t.handReport_frame
      exact ⟨counters.trans ht.1, fun l => State.line_congr lines l ▸ ht.2 l⟩) s h

theorem exec_restart_countersZero {hd : Header} (taken : s.reception .restart hd hd.source true = .taken)
    (room : s.queue.length < Config.queueLimit) (run : exec (.restart hd) s = .next t) : t.countersZero := by
  cases run
  rw [State.receive_taken taken]
  have kept : s.restarted.handReports.queue.length ≤ 23 :=
    s.restarted.handReports_room (by rw [s.restarted_queue]; exact Nat.le_of_lt_succ room) (by decide)
  exact State.offerFrame_countersZero (State.handReports_countersZero s.restarted_countersZero)
    (Nat.lt_succ_of_le kept) _

/-- Every command keeps the counters within their range. -/
theorem exec_countersBounded {c : Instr} (range : s.countersBounded) (run : exec c s = .next t) : t.countersBounded := by
  cases h : resetsCounters c with
  | false => exact (exec_counts h run).countersBounded range
  | true =>
    cases c with
    | pinReset pins => cases run; exact (State.reset_countersZero _ _).bounded
    | restart hd =>
      cases run
      refine State.receive_keeps range ?_ ?_ ?_ ..
      · exact (Counts.refl s).bumpBad.countersBounded range
      · exact (Counts.refl s).bumpRefused.countersBounded range
      · exact ((Counts.refl s.restarted).handReports.offerFrame).countersBounded s.restarted_countersZero.bounded
    | _ => cases h

/-- Settles O55: every command but the two resets lets the counters rise, which each operation does by `bump` alone,
and the resets begin again at 0. -/
theorem countersSaturate : Obligations.CountersSaturate := by
  unfold Obligations.CountersSaturate
  refine ⟨fun c => bump_of_lt, bump_limit, fun s t range run => ?_, fun c s t noPin noRestart run => ?_,
    fun pins s t run => ?_, fun hd s t taken room run => exec_restart_countersZero taken room run⟩
  · unfold step at run
    split at run
    · cases run; exact range
    · next rest _ => exact exec_countersBounded (s := { s with pending := rest }) range run
  · have noReset : resetsCounters c = false := by
      cases c with
      | pinReset pins => exact absurd rfl (noPin pins)
      | restart hd => exact absurd rfl (noRestart hd)
      | _ => rfl
    have rise := exec_counts noReset run
    exact ⟨rise.card.le, fun l => (rise.lines l).le⟩
  · cases run
    exact State.reset_countersZero _ _

end Sys2Proof.Machine

namespace Sys2Proof.Machine

variable {s t u v : State} {l : LineId} {i : Slot} {r : Record} {c : Circuit}

/-! ## The fit estimate and the opening of a window -/

theorem fitEstimate_exact {r q : Nat} (h : r + (r * q + 63) / 64 ≤ 4095) :
    fitEstimate r q = r + (r * q + 63) / 64 ∧ fitSaturated r q = false :=
  ⟨min_eq_right h, decide_eq_false (Nat.not_lt.mpr h)⟩

theorem fitEstimate_saturated {r q : Nat} (h : 4095 < r + (r * q + 63) / 64) :
    fitEstimate r q = 4095 ∧ fitSaturated r q = true :=
  ⟨min_eq_left h.le, decide_eq_true h⟩

/-- A change of a line's window alone is a change of no other line, and of nothing else. -/
theorem State.modWindow_frame_lines (s : State) (l : LineId) (f : Window → Window) :
    s.modWindow l f = { s with lines := (s.modWindow l f).lines }
      ∧ (∀ m, m ≠ l → (s.modWindow l f).line m = s.line m)
      ∧ (s.modWindow l f).line l = { s.line l with window := ((s.modWindow l f).line l).window } :=
  ⟨rfl, fun _ hm => s.line_modLine_ne _ hm, by rw [State.line_modWindow]⟩

theorem Line.opensPending_iff (x : Line) : x.opensPending = true ↔
    x.window.state = .pending ∧ (x.mode = .active ∨ (x.mode = .keying ∧ x.keyupCount = 2)) := by
  simp [Line.opensPending]

/-- The circuit of a line has a message on air, for which the fit test is made (R97). -/
def State.tested (s : State) (l : LineId) (c : Circuit) (i : Slot) (r : Record) : Prop :=
  (s.line l).circuit = some c ∧ c.current = some i ∧ s.record i = some r ∧ r.state = .onAir

theorem State.fitTest_some (h : s.tested l c i r) :
    s.fitTest l = some (i, fitEstimate r.remainingBlocks c.q, fitSaturated r.remainingBlocks c.q) := by
  obtain ⟨hc, hi, hr, air⟩ := h
  simp [State.fitTest, hc, hi, hr, air]

theorem State.fitTest_none (h : ∀ c i r, ¬ s.tested l c i r) : s.fitTest l = none := by
  unfold State.fitTest
  split
  · rfl
  · next c hc =>
    split
    · rfl
    · next i hi =>
      split
      · rfl
      · next r hr => exact if_neg fun air => h c i r ⟨hc, hi, hr, air⟩

/-- A pending window opens by a change of itself; any other stays (R96). -/
theorem State.openPending_cases (s : State) (l : LineId) :
    (¬ (s.line l).opensPending = true ∧ s.openPending l = s)
      ∨ ((s.line l).opensPending = true ∧ ∃ f, s.openPending l = s.modWindow l f) := by
  by_cases opens : (s.line l).opensPending = true
  · refine .inr ⟨opens, ?_⟩
    rw [State.openPending, if_pos opens]
    split <;> exact ⟨_, rfl⟩
  · exact .inl ⟨opens, if_neg opens⟩

theorem State.openPending_frame (s : State) (l : LineId) :
    s.openPending l = { s with lines := (s.openPending l).lines }
      ∧ (∀ m, m ≠ l → (s.openPending l).line m = s.line m)
      ∧ (s.openPending l).line l = { s.line l with window := ((s.openPending l).line l).window } := by
  rcases s.openPending_cases l with ⟨-, e⟩ | ⟨-, f, e⟩
  · rw [e]
    exact ⟨rfl, fun _ _ => rfl, rfl⟩
  · rw [e]
    exact s.modWindow_frame_lines l f

/-- Without a message on air no test is made, and the window opens (R97). -/
theorem State.openPending_untested (opens : (s.line l).opensPending = true) (h : ∀ c i r, ¬ s.tested l c i r) :
    ((s.openPending l).line l).window
      = { (s.line l).window with state := .isOpen, deferredCycles := 0, unitsEnded := false, noticeStep := 0 } := by
  rw [State.openPending, if_pos opens, State.fitTest_none h, State.line_modWindow]

/-- With one the estimate defers the window, or lets it open (R97, R126). -/
theorem State.openPending_tested (opens : (s.line l).opensPending = true) (h : s.tested l c i r) :
    let est := fitEstimate r.remainingBlocks c.q
    let saturated := fitSaturated r.remainingBlocks c.q
    let defers := saturated = false ∧ est ≤ (s.lineConfig l).grace
    (defers → ((s.openPending l).line l).window = ⟨.openDeferred, some i, 0, false, 0, est, false⟩)
      ∧ (¬ defers → ((s.openPending l).line l).window = ⟨.isOpen, none, 0, false, 0, est, saturated⟩) := by
  intro est saturated defers
  have opened : ((s.openPending l).line l).window
      = ⟨if !saturated && decide (est ≤ (s.lineConfig l).grace) then .openDeferred else .isOpen,
        if !saturated && decide (est ≤ (s.lineConfig l).grace) then some i else none, 0, false, 0, est, saturated⟩ := by
    rw [State.openPending, if_pos opens, State.fitTest_some h, State.line_modWindow]
  have test : (!saturated && decide (est ≤ (s.lineConfig l).grace)) = true ↔ defers := by simp [defers]
  rw [opened]
  refine ⟨fun d => ?_, fun d => ?_⟩
  · rw [if_pos (test.mpr d), if_pos (test.mpr d), d.1]
  · rw [if_neg (mt test.mp d), if_neg (mt test.mp d)]

/-! ## The deferral step -/

/-- A deferral counts the boundary, and ends at GRACE (R98). -/
theorem State.deferralStep_window {w : Window} (h : (s.line l).window = w) :
    (w.state ≠ .openDeferred → ((s.deferralStep l).line l).window = w)
      ∧ (w.state = .openDeferred → w.deferredCycles + 1 < (s.lineConfig l).grace →
        ((s.deferralStep l).line l).window = { w with deferredCycles := w.deferredCycles + 1 })
      ∧ (w.state = .openDeferred → (s.lineConfig l).grace ≤ w.deferredCycles + 1 →
        ((s.deferralStep l).line l).window
          = { w with deferredCycles := w.deferredCycles + 1, state := .isOpen, deferredFor := none }) := by
  subst h
  rw [State.deferralStep, State.line_modWindow]
  refine ⟨fun other => if_neg other, fun deferred more => ?_, fun deferred ran => ?_⟩
  · exact (if_pos deferred).trans (if_pos more)
  · exact (if_pos deferred).trans (if_neg (Nat.not_lt.mpr ran))

/-! ## The answer of an open window, and the end of a unit -/

theorem State.askWindow_part_iff :
    s.askWindow l = .part i ↔ firstWith (readByPass s l) (s.line l).windowQueue i := by
  rw [← State.nextPass_iff, State.askWindow]
  cases s.nextPass l with
  | some j => simp
  | none => cases (s.line l).window.unitsEnded <;> simp

theorem State.askWindow_none (h : s.nextPass l = none) :
    s.askWindow l = if (s.line l).window.unitsEnded then .nothing else .notice := by
  rw [State.askWindow, h]

theorem State.nextPass_congr (records : t.records = s.records)
    (queue : (t.line l).windowQueue = (s.line l).windowQueue) : t.nextPass l = s.nextPass l := by
  have part : ∀ i, t.part? i l = s.part? i l := fun i => by
    rw [State.part?, State.part?, State.record_congr records]
  simp only [State.nextPass, queue, State.sendable_congr records, part]

/-- A line with a window unit ended: units-ended set, and a B turn over (R101, R115). -/
def Line.unitEnded (x : Line) : Line :=
  { x with window := { x.window with unitsEnded := true }, arbiter := x.arbiter.endBTurn }

theorem Arbiter.endBTurn_of_bulletin {a : Arbiter} (h : a.turn = .bulletin) :
    a.endBTurn = ⟨a.phasePointer, .noTurn, 0, false, a.keepOffered⟩ := by
  unfold Arbiter.endBTurn
  rw [h]
  rfl

/-- The end of a unit in an open window: the window closes where the pass has no part left (R101). -/
theorem State.unitEnds_open (opened : (s.line l).window.state = .isOpen) :
    s.unitEnds l = if (s.nextPass l).isSome then s.modLine l Line.unitEnded
      else (s.modLine l Line.unitEnded).closeWindow l := by
  have same : (s.modLine l Line.unitEnded).nextPass l = s.nextPass l :=
    State.nextPass_congr rfl (by rw [State.line_modLine_self]; rfl)
  unfold State.unitEnds
  rw [if_pos opened]
  dsimp only
  split
  · next j hj => exact (if_pos (Option.isSome_iff_exists.mpr ⟨j, same.symm.trans hj⟩)).symm
  · next hj => exact (if_neg (by rw [same.symm.trans hj]; nofun)).symm

theorem State.unitEnds_line (opened : (s.line l).window.state = .isOpen) (left : s.nextPass l ≠ none) :
    (s.unitEnds l).line l = (s.line l).unitEnded := by
  rw [State.unitEnds_open opened, if_pos (Option.isSome_iff_ne_none.mpr left), State.line_modLine_self]

theorem State.closeWindow_closed (s : State) (l : LineId) :
    windowClosed s (s.closeWindow l) l (s.line l).window.noticeStep := by
  refine ⟨by rw [State.line_closeWindow], by rw [State.line_closeWindow], fun i hi p hp => ⟨_, ?_, rfl⟩⟩
  have record : (s.closeWindow l).record i = (s.record i).map fun r => r.modPart l Part.unmarked :=
    (s.clearPassMarks_record l i).trans (if_pos hi)
  obtain ⟨r, hr, part⟩ := Option.bind_eq_some_iff.mp hp
  rw [State.part?, record, hr]
  show (r.modPart l Part.unmarked).part? l = _
  rw [Record.part?_modPart r l l Part.unmarked fun _ => rfl, part]
  simp [Part.unmarked]

/-- A window that has closed since a card has closed since another with the same window queue and parts. -/
theorem windowClosed.since {step : Nat} (h : windowClosed v u l step) (records : v.records = s.records)
    (queue : (v.line l).windowQueue = (s.line l).windowQueue)
    (window : { (v.line l).window with state := .closed, unitsEnded := false, noticeStep := step }
      = { (s.line l).window with state := .closed, unitsEnded := false, noticeStep := step }) :
    windowClosed s u l step := by
  obtain ⟨closed, queued, marks⟩ := h
  have part : ∀ i, v.part? i l = s.part? i l := fun i => by
    rw [State.part?, State.part?, State.record_congr records]
  exact ⟨closed.trans window, queued.trans queue, fun i hi p hp => marks i (queue ▸ hi) p ((part i).trans hp)⟩

theorem State.unitEnds_closes (opened : (s.line l).window.state = .isOpen) (spent : s.nextPass l = none) :
    s.unitEnds l = (s.modLine l Line.unitEnded).closeWindow l := by
  rw [State.unitEnds_open opened, if_neg (by rw [spent]; nofun)]

theorem State.unitEnds_closed (opened : (s.line l).window.state = .isOpen) (spent : s.nextPass l = none) :
    windowClosed s (s.unitEnds l) l (s.line l).window.noticeStep := by
  have ended : (s.modLine l Line.unitEnded).line l = (s.line l).unitEnded := State.line_modLine_self ..
  have closed := (s.modLine l Line.unitEnded).closeWindow_closed l
  rw [State.unitEnds_closes opened spent]
  rw [ended] at closed
  exact closed.since rfl (by rw [ended]; rfl) (by rw [ended]; rfl)

/-- A B turn ends with its unit (R115). -/
theorem State.unitEnds_arbiter (opened : (s.line l).window.state = .isOpen)
    (turn : (s.line l).arbiter.turn = .bulletin) : ((s.unitEnds l).line l).arbiter
      = ⟨(s.line l).arbiter.phasePointer, .noTurn, 0, false, (s.line l).arbiter.keepOffered⟩ := by
  have ended : (s.line l).unitEnded.arbiter
      = ⟨(s.line l).arbiter.phasePointer, .noTurn, 0, false, (s.line l).arbiter.keepOffered⟩ :=
    Arbiter.endBTurn_of_bulletin turn
  by_cases spent : s.nextPass l = none
  · rw [State.unitEnds_closes opened spent, State.line_closeWindow, State.line_modLine_self, ended]
    rfl
  · rw [State.unitEnds_line opened spent, ended]

/-! ## The end of a notice run -/

/-- The card with the outcome of its line taken up and the notice run dropped. -/
def State.runDropped (s : State) (l : LineId) : State := (s.heeding l).dropNotice l

theorem State.runDropped_line (s : State) (l : LineId) : (s.runDropped l).line l
    = { s.line l with outcome := none, window := { (s.line l).window with noticeStep := 0 } } := by
  rw [State.runDropped, State.dropNotice, State.line_modWindow, State.heeding_line]

theorem State.settled_notice (h : (s.line l).ended = some .notice) : s.settled l
    = if (s.line l).window.noticeStep < 4 then s.heeding l else (s.runDropped l).unitEnds l := by
  have step : ((s.heeding l).line l).window.noticeStep = (s.line l).window.noticeStep := by rw [State.heeding_line]
  rw [State.settled, h, ← step]
  rfl

/-- The end of a notice run in an open window, as its line sees it (R100, R101). -/
theorem State.settled_run (h : (s.line l).ended = some .notice) (run : 4 ≤ (s.line l).window.noticeStep)
    (opened : (s.line l).window.state = .isOpen) :
    (s.nextPass l ≠ none → ((s.settled l).line l).window
        = { (s.line l).window with noticeStep := 0, unitsEnded := true })
      ∧ (s.nextPass l = none → windowClosed s (s.settled l) l 0) := by
  have line := s.runDropped_line l
  have same : (s.runDropped l).nextPass l = s.nextPass l := State.nextPass_congr rfl (by rw [line])
  have stillOpen : ((s.runDropped l).line l).window.state = .isOpen := by rw [line]; exact opened
  rw [State.settled_notice h, if_neg (Nat.not_lt.mpr run), ← same]
  refine ⟨fun left => ?_, fun spent => ?_⟩
  · rw [State.unitEnds_line stillOpen left, line]
    rfl
  · have closed := State.unitEnds_closed stillOpen spent
    rw [line] at closed
    exact closed.since rfl (by rw [line]) (by rw [line])

/-- Settles O18: the estimate on either side of its limit; a pending window by whether a message is on air, and by the
estimate; the deferral step; the answer by the part the pass finds; and the end of a run and of a unit by whether it
finds one. -/
theorem fitEstimateSaturates : Obligations.FitEstimateSaturates := by
  unfold Obligations.FitEstimateSaturates
  have left_iff : ∀ (l : LineId) (s : State),
      (∃ i ∈ (s.line l).windowQueue, readByPass s l i) ↔ s.nextPass l ≠ none := fun l s => by
    rw [Ne, State.nextPass_none_iff]
    simp only [not_forall, not_not, exists_prop]
  refine ⟨fun r q hr hq => ⟨fitEstimate_exact, fitEstimate_saturated, Nat.mul_le_mul hr hq⟩, ?_, ?_, ?_, ?_⟩
  · intro l s x t opens tested
    obtain ⟨whole, others, line⟩ := s.openPending_frame l
    refine ⟨fun shut => ?_, whole, others, line, fun o none' => ?_, fun c i r o on => ?_⟩
    · exact if_neg (mt x.opensPending_iff.mp shut)
    · exact State.openPending_untested (x.opensPending_iff.mpr o) none'
    · exact State.openPending_tested (x.opensPending_iff.mpr o) on
  · intro l s w t
    obtain ⟨whole, others, line⟩ := s.modWindow_frame_lines l _
    exact ⟨whole, others, line, State.deferralStep_window rfl⟩
  · exact fun l s => ⟨fun i => State.askWindow_part_iff,
      fun none' => State.askWindow_none (State.nextPass_none_iff.mpr none')⟩
  · intro l s w left
    refine ⟨fun notice => ⟨fun more => ?_, fun run opened => ?_⟩, fun opened => ⟨fun more => ?_, fun spent => ?_, ?_⟩⟩
    · rw [State.settled_notice notice, if_pos more, State.heeding_line]
    · obtain ⟨goesOn, closes⟩ := State.settled_run notice run opened
      exact ⟨fun more => goesOn ((left_iff l s).mp more), fun spent => closes (not_not.mp (mt (left_iff l s).mpr spent))⟩
    · rw [State.unitEnds_line opened ((left_iff l s).mp more)]
      rfl
    · exact State.unitEnds_closed opened (not_not.mp (mt (left_iff l s).mpr spent))
    · exact State.unitEnds_arbiter opened

end Sys2Proof.Machine

namespace Sys2Proof.Machine

variable {s : State} {l m : LineId} {ship : Nat} {band : Band}

/-! ## The line of least backlog -/

theorem mem_lineIds (l : LineId) : l ∈ lineIds := by fin_cases l <;> simp [lineIds]

theorem lineIds_increasing : lineIds.Pairwise (· < ·) := by decide

theorem State.leastBacklog_none_iff (s : State) (ls : List LineId) : s.leastBacklog ls = none ↔ ls = [] := by
  cases ls with
  | nil => simp [State.leastBacklog]
  | cons l rest =>
    rw [State.leastBacklog]
    split
    · simp
    · split <;> simp

/-- Of lines in line-number order the one chosen has the least backlog, and the lowest number among equals (R128). -/
theorem State.leastBacklog_spec {ls : List LineId} (order : ls.Pairwise (· < ·)) (h : s.leastBacklog ls = some l) :
    l ∈ ls ∧ ∀ m ∈ ls, s.backlog l < s.backlog m ∨ (s.backlog l = s.backlog m ∧ l ≤ m) := by
  induction ls generalizing l with
  | nil => cases h
  | cons a rest ih =>
    obtain ⟨first, order⟩ := List.pairwise_cons.mp order
    rw [State.leastBacklog] at h
    split at h
    · next none' =>
      obtain rfl := (s.leastBacklog_none_iff rest).mp none'
      cases h
      simp
    · next b hb =>
      obtain ⟨mem, least⟩ := ih order hb
      split at h
      · next le =>
        cases h
        refine ⟨List.mem_cons_self, fun m hm => ?_⟩
        rcases List.mem_cons.mp hm with rfl | hm
        · exact .inr ⟨rfl, le_rfl⟩
        · have above := first m hm
          rcases least m hm with lt | ⟨eq, -⟩
          · exact .inl (le.trans_lt lt)
          · exact (le.trans_eq eq).lt_or_eq.imp_right fun e => ⟨e, above.le⟩
      · next gt =>
        cases h
        refine ⟨List.mem_cons_of_mem a mem, fun m hm => ?_⟩
        rcases List.mem_cons.mp hm with rfl | hm
        · exact .inl (Nat.lt_of_not_le gt)
        · exact least m hm

/-- The line of least backlog among the lines that pass a test (R128). -/
theorem State.leastBacklog_filter {p : LineId → Bool} {P : LineId → Prop} (test : ∀ m, p m = true ↔ P m)
    (h : s.leastBacklog (lineIds.filter p) = some l) :
    P l ∧ ∀ m, P m → s.backlog l < s.backlog m ∨ (s.backlog l = s.backlog m ∧ l ≤ m) := by
  have mem : ∀ m, m ∈ lineIds.filter p ↔ P m := fun m => by simp [mem_lineIds, test]
  obtain ⟨hl, least⟩ := State.leastBacklog_spec (lineIds_increasing.filter p) h
  exact ⟨(mem l).mp hl, fun m hm => least m ((mem m).mpr hm)⟩

theorem State.leastBacklog_filter_none {p : LineId → Bool} {P : LineId → Prop} (test : ∀ m, p m = true ↔ P m)
    (h : s.leastBacklog (lineIds.filter p) = none) (m : LineId) : ¬ P m := fun hm => by
  have empty := (s.leastBacklog_none_iff _).mp h
  exact List.filter_eq_nil_iff.mp empty m (mem_lineIds m) ((test m).mpr hm)

/-! ## The tests of the choice -/

theorem Line.worksFor_iff (x : Line) (ship : Nat) : x.worksFor ship = true ↔ ∃ c, x.circuit = some c ∧ c.ship = ship := by
  unfold Line.worksFor
  cases x.circuit <;> simp

theorem Line.entry?_isSome_iff (x : Line) (ship : Nat) :
    (x.entry? ship).isSome = true ↔ ∃ e ∈ x.callList, e.ship = ship := by
  simp [Line.entry?]

/-- A line is in use of a band: of the band, and neither DISABLED nor STOPPED (R128). -/
def State.inUse (s : State) (band : Band) (m : LineId) : Prop :=
  (s.lineConfig m).band = band ∧ (s.line m).mode ≠ .disabled ∧ (s.line m).mode ≠ .stopped

/-- A line is a STOPPED one of a band (R129). -/
def State.stoppedOf (s : State) (band : Band) (m : LineId) : Prop :=
  (s.lineConfig m).band = band ∧ (s.line m).mode = .stopped

theorem State.inUse_iff (s : State) (band : Band) (m : LineId) :
    (decide ((s.lineConfig m).band = band) && decide ((s.line m).mode ≠ .disabled)
      && decide ((s.line m).mode ≠ .stopped)) = true ↔ s.inUse band m := by
  simp [State.inUse, and_assoc]

theorem State.stoppedOf_iff (s : State) (band : Band) (m : LineId) :
    (decide ((s.lineConfig m).band = band) && decide ((s.line m).mode = .stopped)) = true ↔ s.stoppedOf band m := by
  simp [State.stoppedOf]

theorem State.circuitLine_some (h : s.circuitLine ship = some l) :
    ∃ c, (s.line l).circuit = some c ∧ c.ship = ship :=
  (Line.worksFor_iff _ ship).mp (List.find?_some (p := fun m => (s.line m).worksFor ship) h)

theorem State.circuitLine_none (h : s.circuitLine ship = none) (m : LineId) :
    ¬ ∃ c, (s.line m).circuit = some c ∧ c.ship = ship :=
  mt (Line.worksFor_iff _ ship).mpr (List.find?_eq_none.mp h m (mem_lineIds m))

theorem State.entryLine_some (h : s.entryLine ship = some l) : ∃ e ∈ (s.line l).callList, e.ship = ship :=
  (Line.entry?_isSome_iff _ ship).mp (List.find?_some (p := fun m => ((s.line m).entry? ship).isSome) h)

theorem State.entryLine_none (h : s.entryLine ship = none) (m : LineId) :
    ¬ ∃ e ∈ (s.line m).callList, e.ship = ship :=
  mt (Line.entry?_isSome_iff _ ship).mpr (List.find?_eq_none.mp h m (mem_lineIds m))

/-! ## The backlog -/

/-- The blocks still to be acknowledged of the message in a slot; none of an empty slot (R124). -/
def State.blocksLeft (s : State) (i : Slot) : Nat := ((s.record i).map Record.remainingBlocks).getD 0

/-- The backlog is one sum over the messages of the whole call list (R127). -/
theorem State.backlog_eq (s : State) (l : LineId) :
    s.backlog l = (((s.line l).callList.flatMap (·.messages)).map s.blocksLeft).sum := by
  rw [List.map_flatMap, List.flatMap, List.sum_flatten, List.map_map]
  rfl

theorem Record.remainingBlocks_telex {r : Record} {x : Telex} (h : r.body = .telex x) :
    r.remainingBlocks = (r.n - x.ackCount + 3) / 4 := by
  simp [Record.remainingBlocks, Record.ackCount, Record.telex?, h, ceilDiv]

theorem Record.remainingBlocks_bulletin {r : Record} {b : Bulletin} (h : r.body = .bulletin b) :
    r.remainingBlocks = (r.n + 3) / 4 := by
  simp [Record.remainingBlocks, Record.ackCount, Record.telex?, h, ceilDiv]

/-- Settles O19: down the choice, a line found is the one its test or its backlog names, and none found fails the test
on every line; the backlog message by message. -/
theorem lineChosenByBacklog : Obligations.LineChosenByBacklog := by
  unfold Obligations.LineChosenByBacklog
  refine ⟨?_, fun s l => ?_⟩
  · intro s ship band least works holds inUse stopped
    unfold State.chooseLine
    split
    · next m hm => exact ⟨fun l hl => .inl (Option.some.inj hl ▸ State.circuitLine_some hm), nofun⟩
    next noCircuit =>
    have unworked := State.circuitLine_none noCircuit
    split
    · next m hm => exact ⟨fun l hl => .inr (.inl ⟨unworked, Option.some.inj hl ▸ State.entryLine_some hm⟩), nofun⟩
    next noEntry =>
    have unheld := State.entryLine_none noEntry
    split
    · next m hm =>
      have chosen : least inUse m := State.leastBacklog_filter (s.inUse_iff band) hm
      exact ⟨fun l hl => .inr (.inr (.inl ⟨fun k => ⟨unworked k, unheld k⟩, Option.some.inj hl ▸ chosen⟩)), nofun⟩
    next noneInUse =>
    have unused : ∀ m, ¬ inUse m := State.leastBacklog_filter_none (s.inUse_iff band) noneInUse
    refine ⟨fun l hl => ?_, fun none' m => ⟨unworked m, unheld m, fun hb => ?_⟩⟩
    · exact .inr (.inr (.inr ⟨fun k => ⟨unworked k, unheld k, unused k⟩,
        State.leastBacklog_filter (s.stoppedOf_iff band) hl⟩))
    · have unstopped : ¬ stopped m := State.leastBacklog_filter_none (s.stoppedOf_iff band) none' m
      by_contra enabled
      exact unused m ⟨hb, enabled, fun st => unstopped ⟨hb, st⟩⟩
  · rw [State.backlog_eq]
    congr 2
    funext i
    unfold State.blocksLeft
    cases s.record i with
    | none => rfl
    | some r =>
      cases hb : r.body with
      | telex x => simp [hb, Record.remainingBlocks_telex hb]
      | bulletin b => simp [hb, Record.remainingBlocks_bulletin hb]

end Sys2Proof.Machine

namespace Sys2Proof.Machine

variable {s t u : State} {i j : Slot} {r r' : Record} {p : Prop}

/-! ## Records that answer for reports -/

/-- Whether a record is a TELEX record. -/
def Record.isTelex (r : Record) : Bool := r.telex?.isSome

theorem Record.isTelex_iff : r.isTelex = true ↔ ∃ x, r.body = .telex x := by
  unfold Record.isTelex Record.telex?
  cases r.body <;> simp

theorem Record.not_isTelex_iff : r.isTelex = false ↔ ∃ b, r.body = .bulletin b := by
  unfold Record.isTelex Record.telex?
  cases r.body <;> simp

/-- A slot holds a record that a report can wait for: one in REPORTING, or a bulletin's (R143, R145). -/
def State.owner (s : State) (i : Slot) : Prop :=
  ∃ r, s.record i = some r ∧ (r.state = .reporting ∨ (r.state ≠ .claiming ∧ r.isTelex = false))

theorem State.reportsOwned_iff : s.reportsOwned ↔ ∀ p ∈ s.reports, s.owner p.slot := by
  simp only [State.reportsOwned, State.owner, Record.not_isTelex_iff]

theorem State.claimingTelex_iff :
    s.claimingTelex ↔ ∀ i r, s.record i = some r → r.state = .claiming → r.isTelex = true := by
  simp only [State.claimingTelex, Record.isTelex_iff]

theorem State.owner_congr (h : t.record i = s.record i) : t.owner i ↔ s.owner i := by
  simp only [State.owner, h]

/-- A bulletin's record can have reports where no bulletin is CLAIMING (R134). -/
theorem State.owner_of_bulletin (claiming : s.claimingTelex) (hr : s.record i = some r) (hb : r.isTelex = false) :
    s.owner i := by
  refine ⟨r, hr, .inr ⟨fun e => ?_, hb⟩⟩
  exact absurd (hb.symm.trans (State.claimingTelex_iff.mp claiming i r hr e)) nofun

/-- The laws under which a record stands behind each report that a step makes (R134, R25, R133). -/
structure State.Governed (s : State) : Prop where
  claiming : s.claimingTelex
  ships : s.shipsOnce
  messages : s.messagesPlaced

/-! ## What the store's work may do to a record in its place -/

/-- A record goes on under its key and with its kind, and does not become CLAIMING; under a condition it stays in
REPORTING. -/
structure Record.Follows (p : Prop) (r r' : Record) : Prop where
  key : r'.key = r.key
  kind : r'.isTelex = r.isTelex
  claiming : r'.state = .claiming → r.state = .claiming
  reporting : p → r.state = .reporting → r'.state = .reporting

/-- Besides, it keeps its pages, and enters REPORTING without any (R137). -/
structure Record.Goes (p : Prop) (r r' : Record) : Prop extends Record.Follows p r r' where
  pages : r'.pageList ++ r'.reserved = r.pageList ++ r.reserved
  emptied : r'.state = .reporting → r.state = .reporting ∨ r.pageList ++ r.reserved = []

theorem Record.Follows.refl (r : Record) : r.Follows p r := ⟨rfl, rfl, id, fun _ => id⟩

theorem Record.Goes.trans {r'' : Record} (h1 : r.Goes p r') (h2 : r'.Goes p r'') : r.Goes p r'' where
  key := h2.key.trans h1.key
  kind := h2.kind.trans h1.kind
  claiming := h1.claiming ∘ h2.claiming
  reporting hp := h2.reporting hp ∘ h1.reporting hp
  pages := h2.pages.trans h1.pages
  emptied e := (h2.emptied e).elim h1.emptied fun empty => .inr (h1.pages.symm.trans empty)

/-- A change of other fields than the key, the state, the kind and the pages. -/
theorem Record.Goes.of_state (key : r'.key = r.key) (kind : r'.isTelex = r.isTelex) (state : r'.state = r.state)
    (listed : r'.pageList = r.pageList) (reserved : r'.reserved = r.reserved) : r.Goes p r' where
  key := key
  kind := kind
  claiming e := state ▸ e
  reporting _ e := state ▸ e
  pages := by rw [listed, reserved]
  emptied e := .inl (state ▸ e)

theorem Record.Goes.modBulletin (r : Record) (f : Bulletin → Bulletin) : r.Goes p (r.modBulletin f) := by
  cases hb : r.body with
  | telex x => rw [show r.modBulletin f = r by simp [Record.modBulletin, hb]]; exact .of_state rfl rfl rfl rfl rfl
  | bulletin b =>
    rw [show r.modBulletin f = { r with body := .bulletin (f b) } by simp [Record.modBulletin, hb]]
    exact .of_state rfl (by simp [Record.isTelex, Record.telex?, hb]) rfl rfl rfl

theorem Record.Goes.modTelex (r : Record) (f : Telex → Telex) : r.Goes p (r.modTelex f) := by
  cases hb : r.body with
  | bulletin b => rw [show r.modTelex f = r by simp [Record.modTelex, hb]]; exact .of_state rfl rfl rfl rfl rfl
  | telex x =>
    rw [show r.modTelex f = { r with body := .telex (f x) } by simp [Record.modTelex, hb]]
    exact .of_state rfl (by simp [Record.isTelex, Record.telex?, hb]) rfl rfl rfl

/-! ## The store's work -/

/-- What a record change or a free slot leaves: each record of the second card goes on from one of the first. -/
def State.Continues (p : Prop) (s t : State) : Prop :=
  ∀ j r', t.record j = some r' → ∃ r, s.record j = some r ∧ r.Follows p r'

theorem State.continues_modRecord {f : Record → Record}
    (goes : ∀ r, s.record i = some r → r.Follows p (f r)) : State.Continues p s (s.modRecord i f) := by
  intro j r' hr'
  by_cases hj : j = i
  · subst hj
    rw [State.record_modRecord_self, Option.map_eq_some_iff] at hr'
    obtain ⟨r, hr, rfl⟩ := hr'
    exact ⟨r, hr, goes r hr⟩
  · exact ⟨r', (State.record_modRecord_ne s f hj).symm.trans hr', .refl r'⟩

theorem State.continues_returnPages (s : State) (i : Slot) : State.Continues p s (s.returnPages i) := by
  intro j r' hr'
  cases hr : s.record i with
  | none => rw [State.returnPages_none hr] at hr'; exact ⟨r', hr', .refl r'⟩
  | some r =>
    by_cases hj : j = i
    · subst hj
      rw [State.returnPages_some hr, State.record_setRecord_self] at hr'
      cases hr'
      exact ⟨r, hr, rfl, rfl, id, fun _ => id⟩
    · exact ⟨r', (s.returnPages_record_ne hj).symm.trans hr', .refl r'⟩

theorem State.continues_free (s : State) (i : Slot) : State.Continues p s (s.setRecord i none) := by
  intro j r' hr'
  by_cases hj : j = i
  · subst hj; simp at hr'
  · exact ⟨r', (State.record_setRecord_ne s none hj).symm.trans hr', .refl r'⟩

/-- What the store's work can make of a card `s`, said once: each rule is one operation on the message table, the
page pool, the report list or the claim windows, with what it asks. Where a report is made or a slot freed, the
rule asks what R145 does of the card only under the laws of `s`. The rules go forward, so that each proof about an
operation reads as its definition does. -/
inductive Stored (s : State) : State → Prop
  | refl : Stored s s
  | other {t u : State} (h : Stored s t) (records : u.records = t.records) (pages : u.freePages = t.freePages)
      (text : u.text = t.text) (claims : u.claims = t.claims)
      (reports : ∀ p ∈ u.reports, ∃ q ∈ t.reports, q.slot = p.slot) : Stored s u
  | change {t : State} {f : Record → Record} (h : Stored s t) (i : Slot)
      (goes : ∀ r, t.record i = some r → r.Goes s.Governed (f r)) : Stored s (t.modRecord i f)
  | returnPages {t : State} (h : Stored s t) (i : Slot) : Stored s (t.returnPages i)
  | free {t : State} (h : Stored s t) (i : Slot)
      (empty : ∀ r, t.record i = some r → r.state = .reporting ∨ r.pageList ++ r.reserved = [])
      (spent : s.Governed → t.owner i → ∀ p ∈ t.reports, p.slot ≠ i) : Stored s (t.setRecord i none)
  | report {t : State} (h : Stored s t) {i : Slot} {item : ReportItem} (owner : s.Governed → t.owner i) :
      Stored s (t.addReport i item)
  | create {t : State} {i : Slot} {r : Record} {n : Nat} (h : Stored s t) (free : t.record i = none)
      (fresh : ∀ j r', t.record j = some r' → r'.key ≠ r.key) (listed : r.pageList = [])
      (reserved : r.reserved = t.freePages.take n) (state : r.state ≠ .reporting)
      (claiming : r.state = .claiming → r.isTelex = true) :
      Stored s ({ t with freePages := t.freePages.drop n }.setRecord i (some r))
  | write {t : State} {pages : List PageId} {position : Nat} {chars : List Byte} (h : Stored s t) :
      Stored s { t with text := writeChars pages t.text position chars }
  | window {t : State} {ws : List ClaimWindow} (h : Stored s t)
      (room : t.claims.length ≤ Config.claimLimit → ws.length ≤ Config.claimLimit) : Stored s { t with claims := ws }

/-! ## What the store's work keeps -/

theorem Stored.textCanonical (h : Stored s t) (canonical : s.textCanonical) : t.textCanonical := by
  induction h with
  | refl => exact canonical
  | other _ _ _ text _ _ ih => rwa [State.textCanonical, text]
  | returnPages _ i ih =>
    rw [State.returnPages_frame]
    exact ih
  | write _ ih => exact Memory.wf_writeChars _ _ _ _ ih
  | change | free | report | create | window => assumption

theorem Stored.claimsBounded (h : Stored s t) (bounded : s.claimsBounded) : t.claimsBounded := by
  induction h with
  | refl => exact bounded
  | other _ _ _ _ claims _ ih => rwa [State.claimsBounded, claims]
  | returnPages _ i ih =>
    rw [State.returnPages_frame]
    exact ih
  | window _ room ih => exact room ih
  | change | free | report | create | write => assumption

theorem State.Continues.keysDistinct (h : State.Continues p s t) (distinct : s.keysDistinct) : t.keysDistinct := by
  intro a b ra rb ha hb same
  obtain ⟨ra0, ha0, follows⟩ := h a ra ha
  obtain ⟨rb0, hb0, follows'⟩ := h b rb hb
  exact distinct a b ra0 rb0 ha0 hb0 (follows.key.symm.trans (same.trans follows'.key))

theorem State.Continues.claimingTelex (h : State.Continues p s t) (telex : s.claimingTelex) : t.claimingTelex := by
  rw [State.claimingTelex_iff] at telex ⊢
  intro j r' hr' claiming
  obtain ⟨r, hr, follows⟩ := h j r' hr'
  exact follows.kind.trans (telex j r hr (follows.claiming claiming))

theorem State.continues_of_records (h : t.records = s.records) : State.Continues p s t :=
  fun j r hr => ⟨r, (State.record_congr h j).symm.trans hr, .refl r⟩

/-- A slot of a card in which a record was made holds that record or what it held. -/
theorem State.record_setRecord_cases {x : Option Record} (h : (s.setRecord i x).record j = some r') :
    (j = i ∧ x = some r') ∨ (j ≠ i ∧ s.record j = some r') := by
  by_cases hj : j = i
  · subst hj
    exact .inl ⟨rfl, (s.record_setRecord_self j x).symm.trans h⟩
  · exact .inr ⟨hj, (s.record_setRecord_ne x hj).symm.trans h⟩

theorem Stored.keysDistinct (h : Stored s t) (distinct : s.keysDistinct) : t.keysDistinct := by
  induction h with
  | refl => exact distinct
  | other _ records _ _ _ _ ih => exact (State.continues_of_records (p := True) records).keysDistinct ih
  | change _ i goes ih => exact (State.continues_modRecord fun r hr => (goes r hr).toFollows).keysDistinct ih
  | returnPages _ i ih => exact (State.continues_returnPages (p := True) _ i).keysDistinct ih
  | free _ i _ _ ih => exact (State.continues_free (p := True) _ i).keysDistinct ih
  | create _ _ fresh _ _ _ _ ih =>
    intro a b ra rb ha hb same
    rcases State.record_setRecord_cases ha with ⟨ai, ea⟩ | ⟨-, oldA⟩ <;>
      rcases State.record_setRecord_cases hb with ⟨bi, eb⟩ | ⟨-, oldB⟩
    · exact ai.trans bi.symm
    · cases ea
      exact absurd same.symm (fresh b rb oldB)
    · cases eb
      exact absurd same (fresh a ra oldA)
    · exact ih a b ra rb oldA oldB same
  | report | write | window => assumption

theorem Stored.claimingTelex (h : Stored s t) (telex : s.claimingTelex) : t.claimingTelex := by
  induction h with
  | refl => exact telex
  | other _ records _ _ _ _ ih => exact (State.continues_of_records (p := True) records).claimingTelex ih
  | change _ i goes ih => exact (State.continues_modRecord fun r hr => (goes r hr).toFollows).claimingTelex ih
  | returnPages _ i ih => exact (State.continues_returnPages (p := True) _ i).claimingTelex ih
  | free _ i _ _ ih => exact (State.continues_free (p := True) _ i).claimingTelex ih
  | create _ _ _ _ _ _ claiming ih =>
    rw [State.claimingTelex_iff] at ih ⊢
    intro j r' hr' state
    rcases State.record_setRecord_cases hr' with ⟨-, e⟩ | ⟨-, hr⟩
    · cases e
      exact claiming state
    · exact ih j r' hr state
  | report | write | window => assumption

/-! ### The reports and their records -/

/-- A record that goes on in its slot still answers for its reports. -/
theorem State.owner_modRecord {f : Record → Record} (hp : p) (goes : ∀ r, s.record i = some r → r.Follows p (f r))
    (h : s.owner j) : (s.modRecord i f).owner j := by
  by_cases hj : j = i
  · subst hj
    obtain ⟨r, hr, answers⟩ := h
    refine ⟨f r, by rw [State.record_modRecord_self, hr]; rfl, answers.imp ((goes r hr).reporting hp) ?_⟩
    exact fun ⟨state, bulletin⟩ => ⟨fun e => state ((goes r hr).claiming e), (goes r hr).kind.trans bulletin⟩
  · exact (State.owner_congr (State.record_modRecord_ne s f hj)).mpr h

theorem State.owner_returnPages (s : State) (i j : Slot) : (s.returnPages i).owner j ↔ s.owner j := by
  cases hr : s.record i with
  | none => rw [State.returnPages_none hr]
  | some r =>
    by_cases hj : j = i
    · subst hj
      simp [State.owner, State.returnPages_some hr, hr, Record.isTelex, Record.telex?]
    · exact State.owner_congr (s.returnPages_record_ne hj)

theorem Stored.reportsOwned (laws : s.Governed) (h : Stored s t) (owned : s.reportsOwned) : t.reportsOwned := by
  rw [State.reportsOwned_iff] at owned ⊢
  induction h with
  | refl => exact owned
  | other _ records _ _ _ reports ih =>
    intro p hp
    obtain ⟨q, hq, slot⟩ := reports p hp
    exact (State.owner_congr (State.record_congr records p.slot)).mpr (slot ▸ ih q hq)
  | change _ i goes ih =>
    exact fun p hp => State.owner_modRecord laws (fun r hr => (goes r hr).toFollows) (ih p hp)
  | returnPages _ i ih =>
    intro p hp
    rw [State.returnPages_frame] at hp
    exact (State.owner_returnPages _ i p.slot).mpr (ih p hp)
  | free _ i _ spent ih =>
    intro p hp
    have hj : p.slot ≠ i := fun e => spent laws (e ▸ ih p hp) p hp e
    exact (State.owner_congr (State.record_setRecord_ne _ none hj)).mpr (ih p hp)
  | report _ owner ih =>
    intro p hp
    rcases List.mem_append.mp hp with hp | hp
    · exact ih p hp
    · rw [List.mem_singleton.mp hp]
      exact owner laws
  | @create t i r n _ free _ _ _ _ _ ih =>
    intro p hp
    have hj : p.slot ≠ i := fun e => by
      obtain ⟨r0, hr0, -⟩ := ih p hp
      rw [e, free] at hr0
      cases hr0
    exact (State.owner_congr (State.record_setRecord_ne { t with freePages := t.freePages.drop n } _ hj)).mpr (ih p hp)
  | write | window => assumption

/-! ### The pages and their places -/

/-- The pages a record holds, page-list and reserved (R135). -/
def Record.pages (r : Record) : List PageId := r.pageList ++ r.reserved

theorem State.pagesOf_eq (s : State) (i : Slot) : s.pagesOf i = ((s.record i).map Record.pages).getD [] := by
  unfold State.pagesOf
  cases s.record i <;> rfl

theorem State.pagesOf_congr (h : t.record i = s.record i) : t.pagesOf i = s.pagesOf i := by
  rw [State.pagesOf_eq, State.pagesOf_eq, h]

/-- The pages held, those of one slot first. -/
theorem State.heldPages_perm (s : State) (i : Slot) :
    s.heldPages.Perm (s.pagesOf i ++ (slots.erase i).flatMap s.pagesOf) :=
  (List.perm_cons_erase (List.mem_finRange i)).flatMap_right s.pagesOf

/-- The pages that the other slots hold. -/
theorem State.otherPages_congr (others : ∀ j, j ≠ i → t.record j = s.record j) :
    (slots.erase i).flatMap t.pagesOf = (slots.erase i).flatMap s.pagesOf :=
  List.flatMap_congr fun j hj =>
    State.pagesOf_congr (others j ((List.nodup_finRange 96).mem_erase_iff.mp hj).1)

/-- Every page is in one place still where those of the free list and of one slot together are the same (R135). -/
theorem State.pagesConserved_of_slot (i : Slot) (others : ∀ j, j ≠ i → t.record j = s.record j)
    (moved : (t.freePages ++ t.pagesOf i).Perm (s.freePages ++ s.pagesOf i)) (h : s.pagesConserved) :
    t.pagesConserved := by
  have before : (s.freePages ++ s.pagesOf i ++ (slots.erase i).flatMap s.pagesOf).Perm (s.freePages ++ s.heldPages) := by
    rw [List.append_assoc]
    exact (s.heldPages_perm i).symm.append_left _
  have after : (t.freePages ++ t.heldPages).Perm (t.freePages ++ t.pagesOf i ++ (slots.erase i).flatMap s.pagesOf) := by
    rw [List.append_assoc, ← State.otherPages_congr others]
    exact (t.heldPages_perm i).append_left _
  exact ((after.trans (moved.append_right _)).trans before).trans h

/-- The law of R135 and R137 over the page pool. -/
def State.pagesKept (s : State) : Prop := s.reportingEmpty ∧ s.pagesConserved

/-- A record in REPORTING is without pages where those that were still are, and the one in a slot is (R137). -/
theorem State.reportingEmpty_of_slot (i : Slot) (others : ∀ j, j ≠ i → t.record j = s.record j)
    (here : ∀ r, t.record i = some r → r.state = .reporting → r.pages = []) (h : s.reportingEmpty) :
    t.reportingEmpty := by
  intro j r hr reporting
  by_cases hj : j = i
  · subst hj
    exact List.append_eq_nil_iff.mp (here r hr reporting)
  · exact h j r ((others j hj).symm.trans hr) reporting

theorem State.pagesOf_some (h : s.record i = some r) : s.pagesOf i = r.pages := by
  rw [State.pagesOf_eq, h]
  rfl

theorem State.pagesOf_none (h : s.record i = none) : s.pagesOf i = [] := by
  rw [State.pagesOf_eq, h]
  rfl

theorem Stored.pagesKept (h : Stored s t) (kept : s.pagesKept) : t.pagesKept := by
  induction h with
  | refl => exact kept
  | @other t u _ records pages _ _ _ ih =>
    have same : ∀ j, u.record j = t.record j := State.record_congr records
    obtain ⟨empty, conserved⟩ := ih
    refine ⟨fun j r hr => empty j r ((same j).symm.trans hr), State.pagesConserved_of_slot 0 (fun j _ => same j) ?_
      conserved⟩
    rw [pages, State.pagesOf_congr (same 0)]
  | @change t f _ i goes ih =>
    obtain ⟨empty, conserved⟩ := ih
    have others : ∀ j, j ≠ i → (t.modRecord i f).record j = t.record j := fun j => t.record_modRecord_ne f
    have self := t.record_modRecord_self i f
    cases hr : t.record i with
    | none =>
      rw [hr] at self
      refine ⟨State.reportingEmpty_of_slot i others (fun r e => by rw [self] at e; cases e) empty,
        State.pagesConserved_of_slot i others ?_ conserved⟩
      rw [State.pagesOf_none self, State.pagesOf_none hr]
      rfl
    | some r =>
      rw [hr] at self
      have going := goes r hr
      refine ⟨State.reportingEmpty_of_slot i others (fun r' e reporting => ?_) empty,
        State.pagesConserved_of_slot i others ?_ conserved⟩
      · obtain rfl : f r = r' := Option.some.inj (self.symm.trans e)
        refine going.pages.trans ((going.emptied reporting).elim (fun h => ?_) id)
        exact List.append_eq_nil_iff.mpr (empty i r hr h)
      · rw [State.pagesOf_some self, State.pagesOf_some hr, Record.pages, going.pages]
        rfl
  | @returnPages t _ i ih =>
    obtain ⟨empty, conserved⟩ := ih
    have others : ∀ j, j ≠ i → (t.returnPages i).record j = t.record j := fun j => t.returnPages_record_ne
    cases hr : t.record i with
    | none => rw [State.returnPages_none hr]; exact ⟨empty, conserved⟩
    | some r =>
      have self : (t.returnPages i).record i = some { r with pageList := [], reserved := [] } := by
        rw [State.returnPages_some hr, State.record_setRecord_self]
      refine ⟨State.reportingEmpty_of_slot i others (fun r' e _ => ?_) empty,
        State.pagesConserved_of_slot i others ?_ conserved⟩
      · cases self.symm.trans e
        rfl
      · rw [State.returnPages_freePages, State.pagesOf_some self, Record.pages, List.append_nil]
        exact .of_eq (List.append_nil _)
  | @free t _ i gone _ ih =>
    obtain ⟨empty, conserved⟩ := ih
    have others : ∀ j, j ≠ i → (t.setRecord i none).record j = t.record j := fun j => t.record_setRecord_ne none
    have self := t.record_setRecord_self i none
    refine ⟨State.reportingEmpty_of_slot i others (fun r' e => by rw [self] at e; cases e) empty,
      State.pagesConserved_of_slot i others ?_ conserved⟩
    rw [State.pagesOf_none self]
    cases hr : t.record i with
    | none => rw [State.pagesOf_none hr]; rfl
    | some r =>
      have none' : r.pages = [] := (gone r hr).elim (fun h => List.append_eq_nil_iff.mpr (empty i r hr h)) id
      rw [State.pagesOf_some hr, none']
      rfl
  | @create t i r n _ free _ listed reserved state _ ih =>
    obtain ⟨empty, conserved⟩ := ih
    have others : ∀ j, j ≠ i → ({ t with freePages := t.freePages.drop n }.setRecord i (some r)).record j = t.record j :=
      fun j hj => State.record_setRecord_ne { t with freePages := t.freePages.drop n } _ hj
    have self := State.record_setRecord_self { t with freePages := t.freePages.drop n } i (some r)
    refine ⟨State.reportingEmpty_of_slot i others (fun r' e reporting => ?_) empty,
      State.pagesConserved_of_slot i others ?_ conserved⟩
    · cases self.symm.trans e
      exact absurd reporting state
    · rw [State.pagesOf_some self, State.pagesOf_none free, Record.pages, listed, reserved, List.nil_append,
        List.append_nil]
      refine List.perm_append_comm.trans (.of_eq ?_)
      exact List.take_append_drop n t.freePages
  | report | write | window => assumption

end Sys2Proof.Machine

namespace Sys2Proof.Machine

variable {s t u : State} {l : LineId} {i j : Slot} {r : Record} {c : Circuit}

/-! ## The store's operations on one record -/

/-- A change of other fields than the store's. -/
theorem Stored.kept (h : Stored s t) (records : u.records = t.records) (pages : u.freePages = t.freePages)
    (text : u.text = t.text) (claims : u.claims = t.claims) (reports : u.reports = t.reports) : Stored s u :=
  h.other records pages text claims fun p hp => ⟨p, reports ▸ hp, rfl⟩

theorem Stored.modLine (h : Stored s t) (f : Line → Line) : Stored s (t.modLine l f) := h.kept rfl rfl rfl rfl rfl

theorem Stored.setCircuit (h : Stored s t) (c : Option Circuit) : Stored s (t.setCircuit l c) := h.modLine _

theorem Stored.modWindow (h : Stored s t) (f : Window → Window) : Stored s (t.modWindow l f) := h.modLine _

theorem Stored.modArbiter (h : Stored s t) (f : Arbiter → Arbiter) : Stored s (t.modArbiter l f) := h.modLine _

theorem Stored.modCounters (h : Stored s t) (f : LineCounters → LineCounters) : Stored s (t.modCounters l f) :=
  h.modLine _

/-- A card with what goes with it: the cycle it hands, or the result of an order. -/
theorem Stored.fst {α : Type} {a : α} (h : Stored s t) : Stored s (t, a).1 := h

/-- One branch or the other. -/
theorem Stored.ite {q : Prop} [Decidable q] {v : State} (yes : Stored s u) (no : Stored s v) :
    Stored s (if q then u else v) :=
  iteInduction (fun _ => yes) fun _ => no

/-- A change of other fields of a record than its key, its state, its kind and its pages. -/
theorem Stored.touch {f : Record → Record} (h : Stored s t) (i : Slot)
    (same : ∀ r, (f r).key = r.key ∧ (f r).body = r.body ∧ (f r).state = r.state ∧ (f r).pageList = r.pageList
      ∧ (f r).reserved = r.reserved) : Stored s (t.modRecord i f) :=
  h.change i fun r _ =>
    have ⟨key, body, state, listed, reserved⟩ := same r
    .of_state key (by rw [Record.isTelex, Record.telex?, body]; rfl) state listed reserved

theorem Stored.modBulletin (h : Stored s t) (i : Slot) (f : Bulletin → Bulletin) :
    Stored s (t.modRecord i fun r => r.modBulletin f) :=
  h.change i fun r _ => .modBulletin r f

theorem Stored.modTelex (h : Stored s t) (i : Slot) (f : Telex → Telex) :
    Stored s (t.modRecord i fun r => r.modTelex f) :=
  h.change i fun r _ => .modTelex r f

theorem Stored.modPart (h : Stored s t) (i : Slot) (m : LineId) (f : Part → Part) : Stored s (t.modPart i m f) :=
  h.modBulletin i _

/-- A record whose pages have returned holds none (R137). -/
theorem State.empty_of_returnPages (h : (s.returnPages i).record i = some r) : r.pageList ++ r.reserved = [] := by
  cases hs : s.record i with
  | none => rw [State.returnPages_none hs, hs] at h; cases h
  | some r0 =>
    rw [State.returnPages_some hs, State.record_setRecord_self] at h
    cases h
    rfl

theorem Stored.endWork (h : Stored s t) (i : Slot) : Stored s (t.endWork i) :=
  (h.returnPages i).change i fun _ hr =>
    ⟨⟨rfl, rfl, nofun, fun _ _ => rfl⟩, rfl, fun _ => .inr (State.empty_of_returnPages hr)⟩

theorem Stored.freeIfSpent (h : Stored s t) (i : Slot) : Stored s (t.freeIfSpent i) := by
  rcases t.freeIfSpent_cases i with e | ⟨r, hr, reporting, spent, e⟩
  · rwa [e]
  · rw [e]
    refine h.free i (fun r' hr' => .inl ?_) fun _ _ => spent
    rwa [Option.some.inj (hr'.symm.trans hr)]

/-- Reports leave the list. -/
theorem Stored.fewer {f : Report → Bool} (h : Stored s t) : Stored s { t with reports := t.reports.filter f } :=
  h.other rfl rfl rfl rfl fun p hp => ⟨p, List.mem_of_mem_filter hp, rfl⟩

theorem Stored.addBsent (h : Stored s t) (m : LineId) (rem : Remaining) (owner : s.Governed → t.owner i) :
    Stored s (t.addBsent i m rem) := by
  refine .ite (h.other rfl rfl rfl rfl fun p hp => ?_) (h.report owner)
  obtain ⟨q, hq, rfl⟩ := List.mem_map.mp hp
  refine ⟨q, hq, ?_⟩
  split
  · next same =>
    unfold Report.isBsentOf at same
    split at same
    · exact of_decide_eq_true (Bool.and_eq_true_iff.mp same).1
    · cases same
  · rfl

/-! ## The transmit queue -/

theorem Stored.tellDiscard (h : Stored s t) (p : Payload) : Stored s (t.tellDiscard p) := by
  unfold State.tellDiscard
  split
  · split
    · exact h.touch _ fun _ => ⟨rfl, rfl, rfl, rfl, rfl⟩
    · exact h
  · exact h

theorem Stored.offerFrame (h : Stored s t) {f : Frame} : Stored s (t.offerFrame f) := by
  have counted : ∀ q, Stored s ({ t.bumpDiscarded with queue := q } : State) := fun q => h.kept rfl rfl rfl rfl rfl
  rcases t.offerFrame_cases f with ⟨-, e⟩ | ⟨-, -, e⟩ | ⟨j, x, -, -, -, e⟩
  · exact e ▸ h.kept rfl rfl rfl rfl rfl
  · exact e ▸ (counted t.queue).tellDiscard _
  · exact e ▸ (counted _).tellDiscard _

theorem Stored.handReport (h : Stored s t) : Stored s t.handReport := by
  unfold State.handReport
  split
  · exact h
  · next p rest e =>
    have fewer : ∀ q, Stored s ({ t with reports := rest, queue := q } : State) := fun q =>
      h.other rfl rfl rfl rfl fun p hp => ⟨p, e ▸ List.mem_cons_of_mem _ hp, rfl⟩
    split
    · split
      · exact fewer t.queue
      · exact (fewer _).freeIfSpent _
    · exact h

theorem Stored.handReports (h : Stored s t) : Stored s t.handReports :=
  State.handReports_keeps (P := Stored s) (fun _ => .handReport) t h

/-! ## Messages and their records -/

/-- A slot holds a record. -/
def State.filled (s : State) (i : Slot) : Prop := ∃ r, s.record i = some r

/-- Every message of an entry has a record. -/
def State.messagesFilled (s : State) : Prop :=
  ∀ m, ∀ e ∈ (s.line m).callList, ∀ j ∈ e.messages, s.filled j

theorem State.messagesPlaced.filled (h : s.messagesPlaced) : s.messagesFilled := by
  intro m e he j hj
  obtain ⟨entries, -, -⟩ := h
  obtain ⟨r, -, hr, -⟩ := (entries m e he).2 j hj
  exact ⟨r, hr⟩

theorem Lawful.messagesFilled (h : Lawful s t) (laws : s.Governed) : t.messagesFilled :=
  (h.messages laws.ships laws.messages).filled

theorem State.filled_of_records (h : t.records = s.records) (filled : s.filled j) : t.filled j := by
  obtain ⟨r, hr⟩ := filled
  exact ⟨r, (State.record_congr h j).trans hr⟩

theorem State.filled_modRecord {f : Record → Record} (filled : s.filled j) : (s.modRecord i f).filled j := by
  obtain ⟨r, hr⟩ := filled
  by_cases hj : j = i
  · subst hj
    exact ⟨f r, by rw [State.record_modRecord_self, hr]; rfl⟩
  · exact ⟨r, (s.record_modRecord_ne f hj).trans hr⟩

theorem State.filled_endWork (i : Slot) (filled : s.filled j) : (s.endWork i).filled j := by
  obtain ⟨r, hr⟩ := filled
  by_cases hj : j = i
  · subst hj
    exact ⟨_, State.endWork_record hr⟩
  · exact ⟨r, (s.endWork_record_ne hj).trans hr⟩

theorem State.filled_finishTelex {item : ReportItem} (filled : s.filled j) : (s.finishTelex i item).filled j :=
  State.filled_of_records (t := s.finishTelex i item) (State.leaveEntry_frame (s.endWork i) i).1
    (State.filled_endWork i filled)

theorem State.filled_returnMessages (reason : Reason) (is : List Slot) :
    ∀ {s : State}, s.filled j → (s.returnMessages reason is).filled j := by
  induction is with
  | nil => exact id
  | cons i rest ih => exact fun filled => ih (State.filled_endWork i filled)

theorem State.filled_releaseMessage (filled : s.filled j) : (s.releaseMessage i).filled j := by
  unfold State.releaseMessage
  split
  · split
    · exact State.filled_finishTelex filled
    · exact State.filled_modRecord filled
  · exact filled

/-- A record whose work has ended answers for its last report (R137, R143). -/
theorem State.owner_endWork (filled : s.filled i) : (s.endWork i).owner i := by
  obtain ⟨r, hr⟩ := filled
  exact ⟨_, State.endWork_record hr, .inl rfl⟩

theorem Stored.leaveEntry (h : Stored s t) (i : Slot) : Stored s (t.leaveEntry i) := by
  rcases t.leaveEntry_cases i with e | ⟨r, x, m, hr, hb, hm⟩
  · rwa [e]
  · rw [State.leaveEntry_eq hr hb hm]
    exact h.modLine _

theorem Stored.finishTelex (h : Stored s t) {item : ReportItem} (filled : s.Governed → t.filled i) :
    Stored s (t.finishTelex i item) :=
  ((h.endWork i).leaveEntry i).report fun laws =>
    (State.owner_congr (State.record_congr (State.leaveEntry_frame _ i).1 i)).mpr (State.owner_endWork (filled laws))

theorem Stored.dropTaken (h : Stored s t) (silent : s.Governed → ¬ t.owner i) : Stored s (t.dropTaken i) := by
  have record := State.record_congr (State.leaveEntry_frame (t.returnPages i) i).1 i
  have dropped : Stored s (((t.returnPages i).leaveEntry i).setRecord i none) := by
    refine ((h.returnPages i).leaveEntry i).free i (fun r hr => .inr ?_) fun laws owner => ?_
    · exact State.empty_of_returnPages (record.symm.trans hr)
    · exact absurd ((State.owner_returnPages t i i).mp ((State.owner_congr record).mp owner)) (silent laws)
  exact dropped.kept rfl rfl rfl rfl rfl

theorem Stored.returnMessages (reason : Reason) (is : List Slot) : ∀ {t : State}, Stored s t →
    (s.Governed → ∀ i ∈ is, t.filled i) → Stored s (t.returnMessages reason is) := by
  induction is with
  | nil => exact fun h _ => h
  | cons i rest ih =>
    intro t h filled
    refine ih ((h.endWork i).report fun laws => State.owner_endWork (filled laws i List.mem_cons_self)) ?_
    exact fun laws j hj => State.filled_endWork i (filled laws j (List.mem_cons_of_mem _ hj))

theorem Stored.entryToTail (h : Stored s t) (ship : Nat) (f : Entry → Entry) : Stored s (t.entryToTail l ship f) := by
  rw [State.entryToTail_eq]
  exact h.modLine _

theorem Stored.entryToHead (h : Stored s t) (ship : Nat) (f : Entry → Entry) : Stored s (t.entryToHead l ship f) := by
  rw [State.entryToHead_eq]
  exact h.modLine _

theorem Stored.countAttempt (h : Stored s t) (full : s.Governed → t.messagesFilled) (ship : Nat) (reason : Reason) :
    Stored s (t.countAttempt l ship reason) := by
  unfold State.countAttempt
  split
  · exact h
  · next e he =>
    have freed : Stored s (t.freeEntry l ship) := h.modLine _
    exact .ite (freed.returnMessages reason e.messages fun laws => full laws l e (List.mem_of_find?_eq_some he))
      (.ite freed (h.entryToTail ship _))

theorem Stored.placeMessage {ship : Nat} {band : Band} (h : Stored s t)
    (placed : t.placeMessage l i ship band = some u) : Stored s u := by
  unfold State.placeMessage at placed
  split at placed
  · cases placed
    exact h.modLine _
  · split at placed
    · cases placed
    · cases placed
      exact h.modLine _

/-! ## Bulletins and the window -/

theorem Stored.leaveQueues (h : Stored s t) (i : Slot) : Stored s (t.leaveQueues l i) := h.modLine _

theorem Stored.joinQueue (h : Stored s t) (i : Slot) (kind : ClassType) (cls : Nat) :
    Stored s (t.joinQueue l i kind cls) :=
  h.modLine _

theorem Stored.closeWindow (h : Stored s t) : Stored s (t.closeWindow l) :=
  have cleared : Stored s (t.clearPassMarks l) := List.foldlRecOn _ _ h fun _ hv i _ => hv.modPart i l _
  cleared.modLine _

theorem Stored.unitEnds (h : Stored s t) : Stored s (t.unitEnds l) := by
  unfold State.unitEnds
  dsimp only
  split
  · split
    · exact h.modLine _
    · exact (h.modLine _).closeWindow
  · exact h

theorem Stored.finishIfWithdrawn (h : Stored s t) (i : Slot) : Stored s (t.finishIfWithdrawn i) := by
  unfold State.finishIfWithdrawn
  split
  · exact h
  · next r hr =>
    refine .ite (Stored.report (t := (t.endWork i).discardBsents i) (h.endWork i).fewer fun _ => ?_) h
    exact State.owner_endWork ⟨r, hr⟩

theorem Stored.dropPart (h : Stored s t) (i : Slot) (m : LineId) : Stored s (t.modRecord i fun r => r.dropPart m) :=
  h.modBulletin i _

theorem Stored.withdrawPart (h : Stored s t) (i : Slot) (cut : Bool) : Stored s (t.withdrawPart i l cut) :=
  ((h.leaveQueues i).change i fun r _ =>
    Record.Goes.trans (r' := r.dropPart l) (.modBulletin r _) (.modBulletin _ _)).finishIfWithdrawn i

theorem Stored.retireIfDone (h : Stored s t) (i : Slot) : Stored s (t.retireIfDone i) := by
  unfold State.retireIfDone
  split
  · exact h
  · exact .ite h ((h.endWork i).freeIfSpent i)

theorem Stored.beginSending (h : Stored s t) (i : Slot) : Stored s (t.beginSending l i).1 := by
  rw [State.beginSending_fst]
  exact h.modPart i l _

theorem Stored.continueSending (h : Stored s t) (i : Slot) : Stored s (t.continueSending l i).1 := by
  unfold State.continueSending
  dsimp only
  split <;> exact h.modPart i l _

theorem Stored.requeue (h : Stored s t) (i : Slot) (kind : ClassType) (finished : Bool) :
    Stored s (t.requeue l i kind finished) := by
  unfold State.requeue
  split
  · exact h.leaveQueues i
  · split
    · exact h
    · exact (h.leaveQueues i).joinQueue i .cutIn 0
    · exact (h.leaveQueues i).joinQueue i .free 0
    · exact h

theorem State.requeue_records (s : State) (l : LineId) (i : Slot) (kind : ClassType) (finished : Bool) :
    (s.requeue l i kind finished).records = s.records := by
  unfold State.requeue
  split
  · rfl
  · split <;> rfl

/-- A part stands in the record of a bulletin, and so does what is made of it (R71). -/
theorem State.part_not_telex {p : Part} (h : s.part? i l = some p) (hr : s.record i = some r)
    (f : Bulletin → Bulletin) : (r.modBulletin f).isTelex = false := by
  obtain ⟨r0, b, hr0, hb⟩ := State.bulletin_of_part h
  obtain rfl : r = r0 := Option.some.inj (hr.symm.trans hr0)
  exact (Record.Goes.modBulletin (p := True) r f).kind.trans (Record.not_isTelex_iff.mpr ⟨b, hb⟩)

theorem Stored.completeSending (h : Stored s t) (i : Slot) : Stored s (t.completeSending l i) := by
  unfold State.completeSending
  split
  · next p b hp _ =>
    have sent := (h.modPart i l fun p => p.completed b.kind).requeue (l := l) i b.kind (p.remaining.less = .times 0)
    have counted := sent.modCounters (l := l) fun c => { c with bulletinSendings := bump c.bulletinSendings }
    have told := counted.addBsent (i := i) l p.remaining.less fun laws => by
      obtain ⟨r, -, hr, -⟩ := State.bulletin_of_part hp
      refine State.owner_of_bulletin (r := r.modPart l fun p => p.completed b.kind)
        (counted.claimingTelex laws.claiming) ?_ (State.part_not_telex hp hr _)
      refine (State.record_congr (State.requeue_records _ l i _ _) i).trans ?_
      rw [State.modPart, State.record_modRecord_self, hr]
      rfl
    exact Stored.retireIfDone (.ite told.unitEnds told) i
  · exact h

theorem Stored.abandonSending (h : Stored s t) (i : Slot) : Stored s (t.abandonSending l i) :=
  (h.modPart i l _).modLine _

theorem Stored.stopSending (h : Stored s t) (i : Slot) : Stored s (t.stopSending l i) :=
  .ite (h.withdrawPart i true) (h.abandonSending i)

theorem Stored.breakSending (h : Stored s t) (i : Slot) : Stored s (t.breakSending l i).1 :=
  .ite (h.withdrawPart i true).unitEnds (h.withdrawPart i true)

theorem Stored.removeAllWithdrawn (h : Stored s t) : Stored s (t.removeAllWithdrawn l) :=
  List.foldlRecOn slots _ h fun _ hv i _ => .ite (hv.withdrawPart i false) hv

theorem Stored.conflictPart (h : Stored s t) (i : Slot) : Stored s (t.conflictPart l i) := by
  unfold State.conflictPart
  split
  · next r p hr hp =>
    have discarded : Stored s (t.discardBsent i l) := h.fewer
    have dropped := (discarded.leaveQueues (l := l) i).dropPart i l
    have record : (((t.discardBsent i l).leaveQueues l i).modRecord i fun r => r.dropPart l).record i
        = some (r.dropPart l) := by
      rw [State.record_modRecord_self]
      exact congrArg (Option.map _) hr
    have told := dropped.report (i := i) (item := .conflict) fun laws =>
      State.owner_of_bulletin (dropped.claimingTelex laws.claiming) record (State.part_not_telex hp hr _)
    exact .ite (discarded.withdrawPart i true)
      (.ite (Stored.endWork (.ite dropped told) i) (Stored.retireIfDone (.ite dropped told) i))
  · exact h

end Sys2Proof.Machine

namespace Sys2Proof.Machine

variable {s t u : State} {l : LineId} {i : Slot} {c : Circuit}

/-! ## The messages of the entries keep their records -/

/-- Easing work gives the entries no new message. -/
theorem Eases.messagesFilled {gone : List Slot} (h : Eases gone t u) (records : ∀ j, t.filled j → u.filled j)
    (full : t.messagesFilled) : u.messagesFilled := by
  intro m e' he' j hj
  obtain ⟨p, hp, -, sub⟩ := (h.lines m).entries (e'.ship, e'.messages) (Line.mem_cores.mpr ⟨e', he', rfl, rfl⟩)
  obtain ⟨e, he, -, messages⟩ := Line.mem_cores.mp hp
  exact records j (full m e he j (messages ▸ sub.subset hj))

theorem State.messagesFilled_modLine {f : Line → Line} (calls : ∀ x, (f x).callList = x.callList)
    (full : t.messagesFilled) : (t.modLine l f).messagesFilled := by
  intro m e he j hj
  refine full m e ?_ j hj
  by_cases hm : m = l
  · subst hm
    rwa [State.line_modLine_self, calls] at he
  · rwa [State.line_modLine_ne _ _ hm] at he

/-- The current message of a circuit has a record. -/
theorem Lawful.currentFilled (h : Lawful s t) (hc : (t.line l).circuit = some c) (laws : s.Governed) :
    ∀ i, c.current = some i → t.filled i := by
  intro i hi
  obtain ⟨-, current, -⟩ := h.messages laws.ships laws.messages
  obtain ⟨-, -, e, he, -, mem⟩ := current l c i hc hi
  exact h.messagesFilled laws l e he i mem

theorem State.filled_of_isOnAir (h : s.isOnAir i = true) : s.filled i := by
  obtain ⟨r, hr, -⟩ := Option.any_eq_true _ _ |>.mp h
  exact ⟨r, hr⟩

/-! ## The circuit -/

theorem Stored.releaseMessage (h : Stored s t) (i : Slot) : Stored s (t.releaseMessage i) := by
  unfold State.releaseMessage
  split
  · next air =>
    refine .ite (h.finishTelex fun _ => State.filled_of_isOnAir air) (h.change i fun r hr => ?_)
    have onAir : r.state = .onAir := by simpa [State.isOnAir, hr] using air
    exact ⟨⟨rfl, rfl, nofun, fun _ e => absurd (onAir.symm.trans e) nofun⟩, rfl, nofun⟩
  · exact h

theorem Stored.releaseCurrent (h : Stored s t) (c : Circuit) : Stored s (t.releaseCurrent c) := by
  unfold State.releaseCurrent
  split
  · exact h
  · exact h.releaseMessage _

theorem Stored.endCurrent (h : Stored s t) (c : Circuit) : Stored s (t.endCurrent l c) := by
  unfold State.endCurrent
  split
  · exact h
  · exact (h.releaseMessage _).modWindow _

theorem State.messagesFilled_endCurrent (full : t.messagesFilled) (l : LineId) (c : Circuit) :
    (t.endCurrent l c).messagesFilled := by
  unfold State.endCurrent
  split
  · exact full
  · next i _ =>
    exact State.messagesFilled_modLine (fun _ => rfl)
      ((Eases.releaseMessage t i).messagesFilled (fun _ => State.filled_releaseMessage) full)

theorem Stored.loseCircuit (h : Stored s t) (full : s.Governed → t.messagesFilled) (attempt : Bool) :
    Stored s (t.loseCircuit l attempt) := by
  unfold State.loseCircuit
  split
  · exact h
  · next c _ =>
    have lost := ((h.setCircuit (l := l) none).modCounters (l := l)
      fun n => { n with circuitsLost := bump n.circuitsLost }).endCurrent (l := l) c
    refine .ite (lost.countAttempt (fun laws => State.messagesFilled_endCurrent ?_ l c) c.ship .lost) lost
    exact (Eases.dropCounted (l := l) t _).1.messagesFilled (fun _ => State.filled_of_records rfl) (full laws)

/-- The circuit of a failed call or clear is gone, and the attempt counted (R31, R45). -/
theorem Stored.failCall (h : Stored s t) (full : s.Governed → t.messagesFilled) (ship : Nat) (reason : Reason) :
    Stored s (((t.setCircuit l none).modCounters l fun n => { n with callsFailed := bump n.callsFailed }).countAttempt
      l ship reason) :=
  ((h.setCircuit none).modCounters _).countAttempt (fun laws =>
    (Eases.dropCounted (l := l) t _).1.messagesFilled (fun _ => State.filled_of_records rfl) (full laws)) ship reason

theorem Stored.placeCleared (h : Stored s t) (ship : Nat) (failed : Bool) :
    Stored s (t.placeCleared l ship failed) := by
  unfold State.placeCleared
  split
  · exact h
  · exact .ite (h.modLine _) (.ite (h.entryToHead ship _) (.ite h (h.entryToTail ship id)))

theorem Stored.completeClear (h : Stored s t) (full : s.Governed → t.messagesFilled) (c : Circuit) :
    Stored s (t.completeClear l c) := by
  unfold State.completeClear
  dsimp only
  split
  · exact (h.setCircuit none).placeCleared c.ship false
  · exact (h.failCall full c.ship _).placeCleared c.ship true

theorem Stored.settleIdent (h : Stored s t) (c : Circuit) (o : Outcome) : Stored s (t.settleIdent l c o) := by
  unfold State.settleIdent
  split
  · exact .ite ((h.setCircuit _).modCounters _) (h.setCircuit _)
  · exact .ite h (h.setCircuit _)

theorem Stored.notAcknowledged (h : Stored s t) (full : s.Governed → t.messagesFilled) (c : Circuit)
    (isBlock : Bool) : Stored s (t.notAcknowledged l c isBlock) := by
  have counted : Stored s (if isBlock then t.modCounters l fun n => { n with repeats := bump n.repeats } else t) :=
    .ite (h.modCounters _) h
  have still : s.Governed →
      (if isBlock then t.modCounters l fun n => { n with repeats := bump n.repeats } else t).messagesFilled :=
    fun laws => iteInduction (motive := State.messagesFilled)
      (fun _ => State.messagesFilled_modLine (fun _ => rfl) (full laws)) fun _ => full laws
  refine .ite (counted.setCircuit _) (.ite (counted.setCircuit _) ((counted.setCircuit _).loseCircuit ?_ true))
  exact fun laws => State.messagesFilled_modLine (fun _ => rfl) (still laws)

theorem Stored.modEntry (h : Stored s t) (ship : Nat) (f : Entry → Entry) : Stored s (t.modEntry l ship f) :=
  h.modLine _

theorem Stored.endOfMessage (h : Stored s t) (i : Slot) : Stored s (t.endOfMessage l i) := h.modWindow _

theorem Stored.deliver (h : Stored s t) (c : Circuit) (clearAfter : Bool) (filled : s.Governed → t.filled i) :
    Stored s (t.deliver l c i clearAfter) := by
  have delivered := (((h.finishTelex filled (item := .delivered)).setCircuit (l := l)
    (some { c with current := none })).modEntry (l := l) c.ship fun e => { e with attempts := 0 }).endOfMessage (l := l) i
  exact .ite (delivered.setCircuit _) delivered

theorem Stored.blockGood (h : Stored s t) (c : Circuit) (i : Slot) : Stored s (t.blockGood l c i) := by
  unfold State.blockGood
  split
  · exact h
  · next r hr =>
    have acknowledged := fun f => (h.modTelex i f).setCircuit (l := l) (some c.acknowledged)
    exact .ite ((acknowledged _).deliver _ _ fun _ => State.filled_modRecord ⟨r, hr⟩) (acknowledged _)

theorem Stored.settleBlock (h : Stored s t) (full : s.Governed → t.messagesFilled)
    (current : s.Governed → ∀ i, c.current = some i → t.filled i) (o : Outcome) : Stored s (t.settleBlock l c o) := by
  unfold State.settleBlock
  split
  · split
    · exact h.setCircuit _
    · next i hi =>
      exact .ite (((h.finishTelex fun laws => current laws i hi).setCircuit _).modWindow _) (h.blockGood c i)
  · exact h.notAcknowledged full c true

theorem Stored.settleCircuit (h : Stored s t) (full : s.Governed → t.messagesFilled)
    (current : s.Governed → ∀ i, c.current = some i → t.filled i) (ended : Cycle) (o : Outcome) :
    Stored s (t.settleCircuit l c ended o) := by
  unfold State.settleCircuit
  split
  · exact .ite (h.setCircuit _) (.ite h (h.failCall full c.ship .noAnswer))
  · exact h.setCircuit _
  · exact h.settleIdent c o
  · exact h.settleBlock full current o
  · exact .ite (h.setCircuit _) (h.notAcknowledged full c false)
  · exact h.setCircuit _
  · exact .ite (h.setCircuit _) (.ite (h.setCircuit _) (h.loseCircuit full true))
  · exact .ite h (h.completeClear full c)
  · exact h

theorem Stored.silenceStep (h : Stored s t) (full : s.Governed → t.messagesFilled) (ended : Option Cycle)
    (o : Option Outcome) : Stored s (t.silenceStep l ended o) := by
  unfold State.silenceStep
  split
  · exact h
  · exact .ite (.ite (h.setCircuit _) (.ite (h.setCircuit _) (h.loseCircuit full true))) h

theorem Stored.emptiedCheck (h : Stored s t) : Stored s (t.emptiedCheck l) := by
  unfold State.emptiedCheck
  split
  · exact h
  · split
    · split
      · exact (h.setCircuit none).modLine _
      · exact h.setCircuit _
      · exact h.setCircuit _
      all_goals exact h
    · exact h

theorem Stored.stopCircuit (h : Stored s t) (full : s.Governed → t.messagesFilled) : Stored s (t.stopCircuit l) := by
  unfold State.stopCircuit
  split
  · exact h
  · next c _ =>
    have ended : Stored s (((t.setCircuit l none).releaseCurrent c).freeEmptyEntry l c.ship) :=
      ((h.setCircuit (l := l) none).releaseCurrent c).modLine _
    split
    · exact ended
    · exact ended
    · exact ended
    · exact ended
    · exact h.setCircuit _
    · exact h
    · exact h.completeClear full c

/-! ## The interleaver -/

theorem Stored.handOperation (h : Stored s t) (c : Circuit) : Stored s (t.handOperation l c).1 := by
  unfold State.handOperation
  split
  · exact h.setCircuit _
  · exact h
  · exact h.setCircuit _
  · split
    · exact h.setCircuit _
    · exact h
  · exact h.setCircuit _
  · exact h
  · exact h

theorem Stored.bumpBlocks (h : Stored s t) : Stored s (t.bumpBlocks l) := h.modCounters _

/-- A READY message goes ON-AIR (R36). -/
theorem Record.Goes.air {p : Prop} (r : Record) : r.Goes p (if r.state = .ready then { r with state := .onAir } else r) :=
  iteInduction (motive := r.Goes p)
    (fun ready => ⟨⟨rfl, rfl, nofun, fun _ e => absurd (ready.symm.trans e) nofun⟩, rfl, nofun⟩)
    fun _ => .of_state rfl rfl rfl rfl rfl

theorem Stored.handBlock (h : Stored s t) (c : Circuit) (i : Slot) : Stored s (t.handBlock l c i).1 := by
  unfold State.handBlock
  split
  · exact h
  · exact ((h.change i fun r _ => .air r).setCircuit _).bumpBlocks

theorem Stored.handIdle (h : Stored s t) (c : Circuit) : Stored s (t.handIdle l c).1 := by
  unfold State.handIdle
  split <;> exact h.setCircuit _

theorem Stored.handCut (h : Stored s t) (c : Circuit) : Stored s (t.handCut l c).1 := (h.setCircuit _).bumpBlocks

theorem Stored.handTraffic (h : Stored s t) (c : Circuit) : Stored s (t.handTraffic l c).1 := by
  unfold State.handTraffic
  split
  · exact h.handCut c
  · split
    · exact h.handBlock c _
    · split <;> exact h.handIdle _

theorem Stored.countedTurn {p : State × Cycle} (h : Stored s p.1) : Stored s (countedTurn l p).1 :=
  Stored.fst (h.modArbiter _)

theorem Stored.serveFiller (h : Stored s t) : Stored s (t.serveFiller l).1 := by
  unfold State.serveFiller
  dsimp only
  split
  · exact Stored.fst (h.modLine _)
  · split
    · exact Stored.fst (h.modLine _)
    · exact h

theorem Stored.serveCall (h : Stored s t) : Stored s (t.serveCall l).1 := by
  unfold State.serveCall
  split
  · exact Stored.fst ((h.setCircuit _).modLine _)
  · unfold State.serveFree
    split
    · exact h.beginSending _
    · exact h.serveFiller

theorem Stored.serveTraffic (h : Stored s t) : Stored s (t.serveTraffic l).1 := by
  unfold State.serveTraffic
  split
  · next c _ =>
    split
    · exact (h.handTraffic c).countedTurn
    · exact h.serveCall
  · exact h.serveCall

theorem Stored.beginUnit (h : Stored s t) (answer : WindowAnswer) : Stored s (t.beginUnit l answer).1 := by
  cases answer with
  | part i => exact h.beginSending i
  | notice => exact Stored.fst (h.modWindow _)
  | nothing => exact h.serveTraffic

theorem Stored.readTable (h : Stored s t) (c : Circuit) : Stored s (t.readTable l c).1 := by
  have read := h.modArbiter (l := l) fun a =>
    { a with phasePointer := (t.line l).arbiter.phasePointer + 1, keepOffered := false }
  unfold State.readTable
  dsimp only
  split
  · exact ((read.modArbiter _).handTraffic c).countedTurn
  · split
    · exact read.closeWindow.serveTraffic
    · split
      · exact Stored.fst ((read.modArbiter _).setCircuit _)
      · exact (read.modArbiter _).beginUnit _

theorem Stored.unitBoundary (h : Stored s t) (c : Circuit) : Stored s (t.unitBoundary l c).1 := by
  unfold State.unitBoundary
  split
  · exact h.handTraffic c
  · split
    · exact Stored.fst ((h.modArbiter _).modCounters _)
    · exact h.readTable c

theorem Stored.askWithoutCircuit (h : Stored s t) : Stored s (t.askWithoutCircuit l).1 := by
  have asked := h.modArbiter (l := l) fun a => { a with keepOffered := false }
  unfold State.askWithoutCircuit
  dsimp only
  split
  · exact asked.closeWindow.serveCall
  · exact asked.beginUnit _

theorem Stored.unitOfTurn (h : Stored s t) : Stored s (t.unitOfTurn l).1 := by
  unfold State.unitOfTurn
  split
  · exact h.closeWindow.serveTraffic
  · exact (h.modArbiter _).beginUnit _

theorem Stored.serveWindow (h : Stored s t) : Stored s (t.serveWindow l).1 := by
  unfold State.serveWindow
  dsimp only
  split
  · split
    · exact h.serveTraffic
    · split
      · exact h.serveTraffic
      · exact h.unitOfTurn
    · split
      · exact h.askWithoutCircuit
      · split
        · exact h.unitBoundary _
        · exact h.serveTraffic
  · exact h.serveTraffic

theorem Stored.serveUnit (h : Stored s t) : Stored s (t.serveUnit l).1 := by
  unfold State.serveUnit
  split
  · exact h.continueSending _
  · split
    · exact h.serveWindow
    · exact Stored.fst (h.modWindow _)

theorem Stored.prepareCutIn (h : Stored s t) (i : Slot) : Stored s (t.prepareCutIn l i).1 := by
  have ended := h.modArbiter (l := l) fun a => { a.endTurn with keepOffered := false }
  unfold State.prepareCutIn
  dsimp only
  split
  · exact ended.abandonSending _
  · have dropped := ended.modWindow (l := l) fun w => { w with noticeStep := 0 }
    split
    · exact dropped.beginSending i
    · next c _ =>
      split
      · exact (dropped.setCircuit none).beginSending i
      · split
        · exact Stored.fst (dropped.setCircuit _)
        · exact dropped.handIdle c
      all_goals exact dropped.beginSending i

theorem Stored.serveCutIn (h : Stored s t) : Stored s (t.serveCutIn l).1 := by
  unfold State.serveCutIn
  split
  · exact h.continueSending _
  · split
    · exact h.prepareCutIn _
    · exact h.serveUnit

theorem Stored.serveCut (h : Stored s t) : Stored s (t.serveCut l).1 := by
  unfold State.serveCut
  split
  · exact (h.handCut _).countedTurn
  · split
    · exact h.breakSending _
    · exact h.serveCutIn

theorem Stored.chooseCycle (h : Stored s t) : Stored s (t.chooseCycle l).1 := by
  have ended : Stored s (t.endTests l) := .ite (h.modArbiter _) h
  have served : Stored s ((t.endTests l).serveOperation l).1 := by
    unfold State.serveOperation
    split
    · exact (ended.handOperation _).countedTurn
    · unfold State.serveKeep
      split
      · exact Stored.fst (ended.modCounters _)
      · exact ended.serveCut
  exact .ite served (served.modLine _)

/-! ## A boundary -/

theorem Stored.settle (h : Stored s t) (law : Lawful s t) (ended : Option Cycle) (o : Option Outcome) :
    Stored s (t.settle l ended o) := by
  have heard : Stored s (t.modLine l fun x => { x with outcome := none }) := h.modLine _
  have heardLaw : Lawful s (t.modLine l fun x => { x with outcome := none }) :=
    law.trans (.setMode t (fun _ => rfl) (fun _ => rfl) fun _ => rfl)
  unfold State.settle
  dsimp only
  split
  · exact heard
  · split
    · exact heard.completeSending _
    · exact heard
  · exact .ite heard (heard.modWindow _).unitEnds
  · split
    · exact heard
    · next c hc => exact heard.settleCircuit heardLaw.messagesFilled (heardLaw.currentFilled hc) _ _

theorem Stored.openPending (h : Stored s t) : Stored s (t.openPending l) := by
  unfold State.openPending
  split
  · split <;> exact h.modWindow _
  · exact h

theorem Stored.perBoundary (h : Stored s t) (law : Lawful s t) (before : List Entry) (ended : Option Cycle)
    (o : Option Outcome) : Stored s (t.perBoundary l before ended o) := by
  have held : Stored s (t.decreaseHolds l before) := h.modLine _
  have heldLaw := law.trans (Eases.decreaseHolds (l := l) t before).lawful
  exact ((((held.silenceStep heldLaw.messagesFilled ended o).emptiedCheck).removeAllWithdrawn).modWindow _).openPending

theorem Stored.worked (h : Stored s t) (law : Lawful s t) : Stored s (t.worked l) :=
  (h.settle law _ _).perBoundary (law.trans (.settle t _ _)) _ _ _

theorem Stored.stopKeying (h : Stored s t) (law : Lawful s t) (m : Mode) : Stored s (t.stopKeying l m) := by
  have stopped : Stored s (t.bulletinStopped l) := by
    unfold State.bulletinStopped
    split
    · exact h.stopSending _
    · exact h
  have stoppedLaw := law.trans ((Eases.bulletinStopped (l := l) t).then (.dropNotice (l := l) _)).lawful
  rw [State.stopKeying_eq]
  exact (Stored.stopCircuit (stopped.modWindow _) stoppedLaw.messagesFilled).modLine _

theorem Stored.silenceCheck (h : Stored s t) (law : Lawful s t) : Stored s (t.silenceCheck l) := by
  have stopped : Stored s (if t.silencedLine l then t.stopKeying l .silent else t) :=
    .ite (h.stopKeying law .silent) h
  unfold State.silenceCheck
  split
  · exact stopped
  · exact stopped
  · exact stopped
  · exact stopped
  · exact .ite h (h.modLine _)
  · exact h
  · exact h

theorem Stored.actOrder (h : Stored s t) (law : Lawful s t) (order : LineOrder) :
    Stored s (t.actOrder l order).1 := by
  cases order with
  | stop =>
    dsimp only [State.actOrder]
    split
    case h_6 | h_7 => exact h
    all_goals exact h.stopKeying law .stopped
  | start => exact .ite (h.modLine _) h
  | patternOn =>
    dsimp only [State.actOrder]
    split
    · exact Stored.fst (h.modLine _)
    · exact h
  | patternOff => exact .ite (h.modLine _) h

theorem Stored.modeStep (h : Stored s t) (law : Lawful s t) : Stored s (t.modeStep l).1 := by
  have checked := h.silenceCheck (l := l) law
  have checkedLaw := law.trans (Lawful.silenceCheck (l := l) t)
  have ordered : Stored s ((t.silenceCheck l).orderStep l).1 := by
    unfold State.orderStep
    split
    · exact checked
    · exact Stored.actOrder (checked.modLine (l := l) fun x => { x with held := none })
        (checkedLaw.trans (.setMode _ (fun _ => rfl) (fun _ => rfl) fun _ => rfl)) _
  exact .ite (ordered.modLine _) ordered

theorem Stored.choice (h : Stored s t) : Stored s (t.choice l).1 := by
  unfold State.choice
  split
  · exact h
  · exact h
  · exact h
  · exact h
  · exact Stored.fst (h.modLine _)
  · unfold State.restCheck
    split
    · exact Stored.fst (h.modLine _)
    · exact h
  · exact h.chooseCycle

theorem Stored.answer (h : Stored s t) (m : Mode) (order : Option (Station × OrderResult)) :
    Stored s (t.answer l m order) := by
  have silence : ∀ dest, Stored s
      ((t.modLine l fun x => { x with silenceAnswer := none }).offerLineState l dest m .accepted) :=
    fun _ => Stored.offerFrame (h.modLine _)
  unfold State.answer
  cases (t.line l).silenceAnswer with
  | none =>
    cases order with
    | none => exact h
    | some p => exact h.offerFrame
  | some dest =>
    cases order with
    | none => exact silence dest
    | some p => exact (silence dest).offerFrame

theorem Stored.boundary (h : Stored s t) (law : Lawful s t) : Stored s (t.boundary l) := by
  have chosen : Stored s (t.chosen l).1 := by
    rw [State.chosen_eq, State.stepped_eq]
    exact ((h.worked law).modeStep (law.trans (.worked t))).choice
  rw [State.boundary_eq, State.finish, State.handOver]
  exact (chosen.handReports.answer _ _).modLine _

end Sys2Proof.Machine

namespace Sys2Proof.Machine

variable {s t u : State} {l : LineId} {i j : Slot} {r : Record} {key : Key} {w : ClaimWindow}

/-! ## Loading -/

/-- A record whose pages have returned and that no report waits for leaves its slot. -/
theorem Stored.freeReturned (h : Stored s t) (silent : s.Governed → ¬ t.owner i) :
    Stored s ((t.returnPages i).setRecord i none) :=
  (h.returnPages i).free i (fun _ hr => .inr (State.empty_of_returnPages hr)) fun laws owner =>
    absurd ((State.owner_returnPages t i i).mp owner) (silent laws)

theorem Stored.leaveAllQueues (h : Stored s t) (i : Slot) : Stored s (t.leaveAllQueues i) :=
  List.foldlRecOn lineIds _ h fun _ hv _ _ => hv.leaveQueues i

theorem State.leaveAllQueues_records (s : State) (i : Slot) : (s.leaveAllQueues i).records = s.records := by
  rw [(s.leaveAllQueues_spec i).2.2]

theorem Stored.endLoading (h : Stored s t) (i : Slot) (item : ReportItem) : Stored s (t.endLoading i item) := by
  unfold State.endLoading
  split
  · exact h
  · next r hr =>
    split
    · exact h.finishTelex fun _ => ⟨r, hr⟩
    · refine Stored.report (((h.endWork i).leaveAllQueues i).modBulletin i _) fun _ => ?_
      refine State.owner_modRecord (p := True) trivial (fun r _ => (Record.Goes.modBulletin r _).toFollows) ?_
      exact (State.owner_congr (State.record_congr (State.leaveAllQueues_records _ i) i)).mpr
        (State.owner_endWork ⟨r, hr⟩)

/-- A LOADING record with a chunk stored (R139, R140, R141). -/
theorem Record.Goes.withChunk {p : Prop} (loading : r.state = .loading) (size : Nat) : r.Goes p (r.withChunk size) where
  key := rfl
  kind := rfl
  claiming e := by
    simp only [Record.withChunk, loading] at e
    split at e <;> cases e
  reporting _ e := absurd (loading.symm.trans e) nofun
  pages := by simp [Record.withChunk]
  emptied e := by
    simp only [Record.withChunk, loading] at e
    split at e <;> cases e

theorem Stored.storeChunk (h : Stored s t) (hr : t.record i = some r) (loading : r.state = .loading)
    (chunk : List Byte) : Stored s (t.storeChunk i r chunk) := by
  have written := h.write (pages := (r.withChunk chunk.length).pageList) (position := r.loaded + 1) (chars := chunk)
  have stored := written.change (f := fun _ => r.withChunk chunk.length) i fun r' hr' => by
    rw [← Option.some.inj (hr.symm.trans hr')]
    exact .withChunk loading _
  have same : State.record { t with text := writeChars (r.withChunk chunk.length).pageList t.text (r.loaded + 1) chunk } i
      = some r := hr
  rwa [State.modRecord, same] at stored

theorem Stored.loadChunk (h : Stored s t) (hr : t.record i = some r) (loading : r.state = .loading) (seq : Nat)
    (chunk : List Byte) : Stored s (t.loadChunk i r seq chunk) :=
  .ite h (.ite (h.storeChunk hr loading chunk) (h.endLoading i _).handReports)

/-- No report waits for a telex record that works (R143). -/
theorem State.silent_of_telex (hr : s.record i = some r) (state : r.state ≠ .reporting) (telex : r.isTelex = true) :
    ¬ s.owner i := by
  rintro ⟨r', hr', reporting | ⟨-, bulletin⟩⟩
  all_goals rw [← Option.some.inj (hr.symm.trans hr')] at *
  · exact state reporting
  · exact absurd (telex.symm.trans bulletin) nofun

theorem Stored.takeText (h : Stored s t) (hd : Header) (key : Key) (seq : Nat) (chunk : List Byte) :
    Stored s (t.takeText hd key seq chunk) := by
  unfold State.takeText
  split
  · exact h
  · next i _ =>
    split
    · exact h
    · next r hr =>
      split
      · next loading =>
        have loaded := h.loadChunk hr loading seq chunk
        split
        · next x hb =>
          refine .ite loaded (.ite h (h.dropTaken fun _ => ?_))
          exact State.silent_of_telex hr (by rw [loading]; nofun) (Record.isTelex_iff.mpr ⟨x, hb⟩)
        · exact .ite loaded h
      · exact h

/-! ## The claims -/

/-- No report waits for a record in CLAIMING (R143). -/
theorem State.silent_of_claiming (claiming : ∀ r, s.record i = some r → r.state = .claiming) : ¬ s.owner i := by
  rintro ⟨r, hr, reporting | ⟨working, -⟩⟩
  · exact absurd ((claiming r hr).symm.trans reporting) nofun
  · exact working (claiming r hr)

theorem State.silent_of_claim (laws : s.Governed) (hw : w ∈ s.claims) : ¬ s.owner w.slot :=
  State.silent_of_claiming fun r hr => (State.claimOnly_of_claim laws.messages hw r hr).1

theorem Stored.endClaim (h : Stored s t) (silent : s.Governed → ¬ t.owner i) : Stored s (t.endClaim key i) := by
  have closed := (h.freeReturned silent).window (ws := t.claims.filter fun w => w.key ≠ key) fun room => by
    have kept : ((t.returnPages i).setRecord i none).claims = t.claims := by rw [State.returnPages_frame]; rfl
    rw [kept] at room
    exact (List.length_filter_le _ _).trans room
  exact closed.kept rfl rfl rfl rfl rfl

/-- The card with a CLAIM that has not been seen out of its queue (R160, R161). -/
theorem State.unclaimed_records (s : State) (w : ClaimWindow) :
    (if w.noted then s else s.removeClaims w.key).records = s.records := by
  split <;> rfl

theorem Stored.abortClaim (h : Stored s t) (silent : s.Governed → ¬ t.owner w.slot) : Stored s (t.abortClaim w) := by
  have unclaimed : Stored s (if w.noted then t else t.removeClaims w.key) := .ite h (h.kept rfl rfl rfl rfl rfl)
  refine unclaimed.endClaim fun laws => mt (State.owner_congr ?_).mp (silent laws)
  exact State.record_congr (t.unclaimed_records w) _

/-- The end of a claim makes no record that a report can wait for. -/
theorem State.owner_abortClaim (owner : (s.abortClaim w).owner j) : s.owner j := by
  obtain ⟨freed, -, others, -, -⟩ := s.abortClaim_claimEnded w
  by_cases hj : j = w.slot
  · obtain ⟨r, hr, -⟩ := owner
    rw [hj, freed] at hr
    cases hr
  · exact (State.owner_congr (others j hj)).mp owner

theorem Stored.abortClaims (ws : List ClaimWindow) : ∀ {t : State}, Stored s t →
    (s.Governed → ∀ w ∈ ws, ¬ t.owner w.slot) → Stored s (ws.foldl (fun t w => t.abortClaim w) t) := by
  induction ws with
  | nil => exact fun h _ => h
  | cons w rest ih =>
    intro t h silent
    refine ih (h.abortClaim fun laws => silent laws w List.mem_cons_self) fun laws v hv => ?_
    exact mt State.owner_abortClaim (silent laws v (List.mem_cons_of_mem _ hv))

theorem Stored.abortAllClaims (h : Stored s t) (silent : s.Governed → ∀ w ∈ t.claims, ¬ t.owner w.slot) :
    Stored s t.abortAllClaims :=
  (Stored.abortClaims t.claims h silent).handReports

theorem Stored.withdrawRecord (h : Stored s t) (hr : t.record i = some r) : Stored s (t.withdrawRecord i r) := by
  have finished := fun item => (h.finishTelex (item := item) fun _ => ⟨r, hr⟩).handReports
  have marked : Stored s (t.modRecord i fun r => { r with withdrawMark := true }) :=
    h.touch i fun _ => ⟨rfl, rfl, rfl, rfl, rfl⟩
  unfold State.withdrawRecord
  split
  · split
    · next claiming =>
      refine h.endClaim fun _ => State.silent_of_claiming fun r' hr' => ?_
      rwa [← Option.some.inj (hr.symm.trans hr')]
    · exact finished _
    · exact finished _
    · exact marked
    · exact h
  · split
    · exact (h.endLoading i _).handReports
    · exact marked
    all_goals exact h

theorem Stored.createRecord {n : Nat} {st : RecordState} {timer : Bool} {b : Body} (h : Stored s t)
    (created : t.createRecord key n st timer b = some (i, u)) (state : st ≠ .reporting)
    (claiming : st = .claiming → ∃ x, b = .telex x) : Stored s u := by
  unfold State.createRecord at created
  split at created
  · next unheld free =>
    split at created
    · cases created
    · cases created
      refine h.create (State.freeSlot_spec free) (fun j r hr same => ?_) rfl rfl state fun e =>
        Record.isTelex_iff.mpr (claiming e)
      exact (State.findKey_eq_none_iff key).mp unheld ⟨j, r, hr, same⟩
  · cases created

theorem Stored.sendTake (h : Stored s t) (i : Slot) : Stored s (t.sendTake key i) :=
  (h.touch (f := fun r => { r with takeWaiting := true }) i fun _ => ⟨rfl, rfl, rfl, rfl, rfl⟩).offerFrame

/-- A card that may claim has fewer than 8 windows open (R154). -/
theorem State.claims_lt_of_mayClaim {ship n : Nat} {band : Band} (h : s.mayClaim ship n band = true) :
    s.claims.length < Config.claimLimit := by
  simp only [State.mayClaim, Bool.and_eq_true, decide_eq_true_eq] at h
  obtain ⟨⟨-, room⟩, -⟩ := h
  exact room

theorem Stored.evaluateOffer (h : Stored s t) (key : Key) (ship n : Nat) (band : Band) (clearAfter : Bool) :
    Stored s (t.evaluateOffer key ship n band clearAfter) := by
  unfold State.evaluateOffer
  split
  · next may =>
    split
    · exact h
    · next i u created =>
      have made := h.createRecord created nofun fun _ => ⟨_, rfl⟩
      obtain ⟨-, -, -, -, claims⟩ := State.createRecord_spec created
      refine Stored.offerFrame (made.window fun _ => ?_)
      rw [claims, List.length_append]
      exact State.claims_lt_of_mayClaim may
  · exact h

theorem Stored.takeOffer (h : Stored s t) (key : Key) (ship n : Nat) (band : Band) (clearAfter : Bool) :
    Stored s (t.takeOffer key ship n band clearAfter) := by
  unfold State.takeOffer
  split
  · exact h.evaluateOffer key ship n band clearAfter
  · next i _ _ =>
    split
    · exact h
    · split
      · exact h
      · exact h
      all_goals exact .ite h (h.sendTake i)

/-- A CLAIMING record that is taken loads (R159). -/
theorem Record.Goes.taken {p : Prop} (r : Record) (f : Telex → Telex) (working : p → r.state ≠ .reporting) :
    r.Goes p { r.modTelex f with state := .loading, loadTimer := true } :=
  have kept := Record.Goes.modTelex (p := p) r f
  { key := kept.key
    kind := kept.kind
    claiming := nofun
    reporting hp e := absurd e (working hp)
    pages := kept.pages
    emptied := nofun }

theorem Stored.takeMessage (h : Stored s t) (claiming : s.Governed → t.claimOnly w.key w.slot) :
    Stored s (t.takeMessage w) := by
  have lost : Stored s (t.endClaim w.key w.slot) := h.endClaim fun laws =>
    State.silent_of_claiming fun r hr => (claiming laws r hr).1
  unfold State.takeMessage
  split
  · exact lost
  · split
    · exact lost
    · next l _ =>
      split
      · exact lost
      · next t1 placed =>
        have records := (State.placeMessage_spec placed).2.1
        have loading := (h.placeMessage placed).change
          (f := fun r => { r.modTelex (fun x => { x with line := some l }) with state := .loading, loadTimer := true })
          w.slot fun r hr => .taken r _ fun laws => by
            rw [(claiming laws r ((State.record_congr records w.slot).symm.trans hr)).1]
            nofun
        have closed := loading.window (ws := t1.claims.filter fun v => v.key ≠ w.key)
          (List.length_filter_le _ _).trans
        exact (closed.sendTake w.slot).kept rfl rfl rfl rfl rfl

theorem Stored.resolveClaim (h : Stored s t) (claiming : s.Governed → t.claimOnly w.key w.slot) :
    Stored s (t.resolveClaim w) :=
  have silent : s.Governed → ¬ t.owner w.slot := fun laws =>
    State.silent_of_claiming fun r hr => (claiming laws r hr).1
  .ite (h.abortClaim silent).handReports (.ite (h.takeMessage claiming) (h.endClaim silent))

theorem Stored.takeFromOther (h : Stored s t) (silent : s.Governed → ∀ w ∈ t.claims, ¬ t.owner w.slot)
    (source : Station) (key : Key) : Stored s (t.takeFromOther source key) := by
  unfold State.takeFromOther
  split
  · exact h
  · next i r held =>
    split
    · exact h
    · next x hb =>
      split
      · split
        · next w hw => exact (h.abortClaim fun laws => silent laws w (List.mem_of_find?_eq_some hw)).handReports
        · exact h
      · next loading =>
        refine .ite (h.dropTaken fun _ => ?_) h
        exact State.silent_of_telex (State.recordUnder_spec held).2 (by rw [loading]; nofun)
          (Record.isTelex_iff.mpr ⟨x, hb⟩)
      all_goals exact h

theorem Stored.takeEcho (h : Stored s t) (key : Key) : Stored s (t.takeEcho key) := by
  unfold State.takeEcho
  split
  · exact h.touch _ fun _ => ⟨rfl, rfl, rfl, rfl, rfl⟩
  · exact h

theorem Stored.answerQuery (h : Stored s t) (dest : Station) (selector : Nat) :
    Stored s (t.answerQuery dest selector) := by
  unfold State.answerQuery
  split
  · exact h.offerFrame
  · split
    · exact h.offerFrame
    · exact h

theorem Stored.acceptPost (h : Stored s t) (key : Key) (cls : Fin 16) (n : Nat) (targets : List LineId) :
    Stored s (t.acceptPost key cls n targets) := by
  unfold State.acceptPost
  dsimp only
  split
  · exact h.offerFrame
  · next i _ created =>
    exact List.foldlRecOn targets _ (h.createRecord created nofun nofun) fun _ hv _ _ => hv.joinQueue i _ _

theorem Stored.takePost (h : Stored s t) (key : Key) (cls : Fin 16) (n : Nat) (channels : List (Fin 1024)) :
    Stored s (t.takePost key cls n channels) := by
  unfold State.takePost
  split
  · exact h
  · split
    · exact h
    · split
      · exact h.offerFrame
      · exact h.acceptPost key cls n _

/-! ## The clock, the orders and ANNOUNCE -/

/-- The marks of the times falling due are set, and their openings handed (R89, R93). -/
theorem Stored.openDue {due : Nat → Bool} {ls : List LineId} (h : Stored s t) :
    Stored s ((t.setMarks due).handOpenings ls) := by
  rw [State.handOpenings_frame]
  exact h.kept rfl rfl rfl rfl rfl

theorem Stored.advanceMinute (h : Stored s t) : Stored s t.advanceMinute := by
  have minute : Stored s { t with minute := t.minute + 1 } := h.kept rfl rfl rfl rfl rfl
  have cleared : Stored s (if t.minute + 1 = 0 then ({ t with minute := t.minute + 1 } : State).clearMarks
      else { t with minute := t.minute + 1 }) := .ite (minute.kept rfl rfl rfl rfl rfl) minute
  exact .ite cleared.openDue cleared

theorem Stored.secondPasses (h : Stored s t) : Stored s t.secondPasses :=
  .ite (Stored.advanceMinute (h.kept rfl rfl rfl rfl rfl)) (h.kept rfl rfl rfl rfl rfl)

theorem Stored.dueWork (h : Stored s t) (new : Nat) : Stored s (t.dueWork new) := by
  unfold State.dueWork
  dsimp only
  split
  · exact h.openDue
  · split
    · exact h
    · exact Stored.openDue (h.kept rfl rfl rfl rfl rfl)

theorem Stored.setClock (h : Stored s t) (minute second : Nat) : Stored s (t.setClock minute second) := by
  have due : Stored s (if t.timeValid then t.dueWork minute else t) := .ite (h.dueWork minute) h
  unfold State.setClock
  split
  · exact due.kept rfl rfl rfl rfl rfl
  · exact h

theorem Stored.takeOrder (h : Stored s t) (order : LineOrder) (source : Station) :
    Stored s (t.takeOrder l order source) := by
  unfold State.takeOrder
  split
  · exact h.offerFrame
  · split
    · exact h.modLine _
    · exact h.offerFrame

theorem Stored.meet (h : Stored s t) (source : Station) (a : Announcement) : Stored s (t.meet source a) := by
  have known : Stored s { t with known := addKnown t.known source } := h.kept rfl rfl rfl rfl rfl
  exact .ite (known.offerFrame) known

theorem Stored.adopt (h : Stored s t) (a : Announcement) : Stored s (t.adopt a) := by
  have joined : Stored s { t with silenced := t.silenced ||| a.silenced } := h.kept rfl rfl rfl rfl rfl
  exact .ite (.ite (joined.setClock _ _) joined) h

theorem Stored.loseChannel (h : Stored s t) : Stored s (t.loseChannel l) := by
  have disabled : Stored s (t.modLine l Line.disable) := h.modLine _
  unfold State.loseChannel
  dsimp only
  split
  · exact disabled
  · exact disabled.offerFrame

theorem State.filled_moveEntry (e : Entry) (filled : s.filled j) : (s.moveEntry e).filled j := by
  unfold State.moveEntry
  split
  · next m _ =>
    have joined : (s.modLine m fun x => { x with callList := x.callList ++ [{ e with recalled := false }] }).filled j :=
      State.filled_of_records rfl filled
    exact List.foldlRecOn (motive := fun v : State => v.filled j) e.messages _ joined fun _ hv _ _ =>
      State.filled_modRecord hv
  · exact State.filled_returnMessages .conflict e.messages filled

theorem Stored.moveEntry (h : Stored s t) (e : Entry) (filled : s.Governed → ∀ i ∈ e.messages, t.filled i) :
    Stored s (t.moveEntry e) := by
  unfold State.moveEntry
  split
  · next m _ =>
    have joined := h.modLine (l := m) fun x => { x with callList := x.callList ++ [{ e with recalled := false }] }
    exact List.foldlRecOn e.messages _ joined fun _ hv i _ => hv.modTelex i _
  · exact h.returnMessages .conflict e.messages filled

theorem Stored.moveAll (es : List Entry) : ∀ {t : State}, Stored s t →
    (s.Governed → ∀ e ∈ es, ∀ i ∈ e.messages, t.filled i) → Stored s (es.foldl State.moveEntry t) := by
  induction es with
  | nil => exact fun h _ => h
  | cons e rest ih =>
    intro t h filled
    refine ih (h.moveEntry e fun laws => filled laws e List.mem_cons_self) fun laws e' he' i hi => ?_
    exact State.filled_moveEntry e (filled laws e' (List.mem_cons_of_mem _ he') i hi)

theorem Stored.giveUpTraffic (h : Stored s t) (law : Lawful s t) : Stored s (t.giveUpTraffic l) := by
  have lost := h.loseCircuit (l := l) law.messagesFilled false
  have lostLaw := law.trans (Lawful.loseCircuit (l := l) t false).1
  have moved : Stored s ((t.loseCircuit l false).moveEntries l) :=
    Stored.moveAll _ (lost.modLine _) fun laws e he i hi =>
      State.filled_of_records rfl (lostLaw.messagesFilled laws l e he i hi)
  exact List.foldlRecOn slots _ moved fun _ hv i _ => hv.conflictPart i

theorem Stored.checkConflicts (a : Announcement) (ls : List LineId) : ∀ {t : State}, Stored s t → Lawful s t →
    Stored s (ls.foldl (fun t l => t.checkConflict a l) t) := by
  induction ls with
  | nil => exact fun h _ => h
  | cons l rest ih =>
    intro t h law
    have lostLaw := law.trans (Eases.loseChannel (l := l) t).lawful
    have checked : Stored s (t.checkConflict a l) := .ite (h.loseChannel.giveUpTraffic lostLaw) h
    exact ih checked (iteInduction (motive := Lawful s) (fun _ => lostLaw.trans (.giveUpTraffic _ l)) fun _ => law)

theorem Stored.takeAnnounce (h : Stored s t) (law : Lawful s t) (source : Station) (a : Announcement) :
    Stored s (t.takeAnnounce source a) := by
  have adopted := (h.meet source a).adopt a
  have adoptedLaw := law.trans ((Eases.meet t source a).then (.adopt _ a)).lawful
  refine .ite h (Stored.handReports ?_)
  exact .ite (Stored.checkConflicts a lineIds adopted adoptedLaw) adopted

/-! ## RESTART -/

theorem Stored.restartRecord (h : Stored s t) (i : Slot) : Stored s (t.restartRecord i) := by
  have bare : ∀ {v : State}, Stored s v →
      Stored s (v.modRecord i fun r => r.modBulletin fun b => { b with parts := [] }) := fun h => h.modBulletin i _
  have ended : (t.filled i) → Stored s ((((t.endWork i).discardBsents i).addReport i (.returned .restart)).modRecord i
      fun r => r.modBulletin fun b => { b with parts := [] }) := fun filled =>
    bare (Stored.report (t := (t.endWork i).discardBsents i) (h.endWork i).fewer fun _ => State.owner_endWork filled)
  unfold State.restartRecord
  split
  · exact h
  · next r hr =>
    split
    · next claiming =>
      refine h.freeReturned fun _ => State.silent_of_claiming fun r' hr' => ?_
      rwa [← Option.some.inj (hr.symm.trans hr')]
    · exact ended ⟨r, hr⟩
    · exact ended ⟨r, hr⟩
    · exact ended ⟨r, hr⟩
    · exact (bare (v := t.discardBsents i) h.fewer).freeIfSpent i

theorem Stored.restarted (h : Stored s t) : Stored s t.restarted := by
  have records : Stored s (slots.foldl State.restartRecord t) :=
    List.foldlRecOn slots _ h fun _ hv i _ => hv.restartRecord i
  exact (records.window (ws := []) fun _ => Nat.zero_le _).kept rfl rfl rfl rfl rfl

/-! ## The commands -/

theorem Stored.receive {act : State → State} (h : Stored s (act s)) (k : FrameKind) (hd : Header) (poster : Station)
    (ok : Bool) : Stored s (s.receive k hd poster ok act) :=
  State.receive_keeps (P := Stored s) .refl (Stored.refl.kept rfl rfl rfl rfl rfl)
    (Stored.refl.kept rfl rfl rfl rfl rfl) h k hd poster ok

/-- Every command but PIN_RESET is the store's work. -/
theorem exec_stored {c : Instr} (h : ∀ pins, c ≠ .pinReset pins) (run : exec c s = .next t) : Stored s t := by
  have here : Stored s s := .refl
  have law : Lawful s s := .refl s
  have same : ∀ {u : State}, u.records = s.records → u.freePages = s.freePages → u.text = s.text →
      u.claims = s.claims → u.reports = s.reports → Stored s u := here.kept
  cases c with
  | pinReset pins => exact absurd rfl (h pins)
  | configurationReadEnd result =>
    cases run
    refine .ite ?_ here
    split
    · next c _ => exact Stored.offerFrame (t := s.settleConfig c) (same rfl rfl rfl rfl rfl)
    · exact Stored.offerFrame (t := s.settleFault) (same rfl rfl rfl rfl rfl)
  | startIntervalExpiry => cases run; exact same rfl rfl rfl rfl rfl
  | boundary l => cases run; exact .ite (here.boundary law) here
  | outcomeRecord l => cases run; exact here.modLine _
  | secondTimerExpiry => cases run; exact .ite here.secondPasses here
  | time => cases run; exact .receive (here.setClock _ _) ..
  | loadTimerExpiry key =>
    cases run
    split
    · exact .ite (here.endLoading _ _).handReports here
    · exact here
  | claimWindowExpiry key =>
    cases run
    split
    · next w hw =>
      exact here.resolveClaim fun laws => State.claimOnly_of_claim laws.messages (List.mem_of_find?_eq_some hw)
    · exact here
  | offer => cases run; exact .receive (here.takeOffer ..) ..
  | claim hd key grade =>
    cases run
    exact .receive (act := fun s => { s with claims := s.claims.map fun w =>
      if w.key = key then (w.note ⟨grade, hd.source⟩ s.strap) else w })
      (here.window fun room => (List.length_map _).trans_le room) ..
  | takeReceived =>
    cases run
    refine .receive ?_ ..
    split
    · exact here.takeEcho _
    · exact here.takeFromOther (fun laws _ hw => State.silent_of_claim laws hw) _ _
  | text => cases run; exact .receive (here.takeText ..) ..
  | post => cases run; exact .receive (here.takePost ..) ..
  | withdraw hd key =>
    cases run
    refine .receive ?_ ..
    split
    · next held => exact here.withdrawRecord (State.recordUnder_spec held).2
    · exact here
  | silence | resume => cases run; exact .receive (same rfl rfl rfl rfl rfl) ..
  | stopLine | startLine | patternOn | patternOff => cases run; exact .receive (here.takeOrder _ _) ..
  | restart =>
    cases run
    exact .receive (act := fun s => s.restarted.handReports.offerAnnounce false true)
      (Stored.offerFrame here.restarted.handReports) ..
  | announce => cases run; exact .receive (here.takeAnnounce law _ _) ..
  | statusQuery => cases run; exact .receive (here.answerQuery _ _) ..
  | badFrame check =>
    cases run
    refine .ite ?_ here
    have bad : Stored s s.bumpBad := same rfl rfl rfl rfl rfl
    cases check with
    | crc => exact bad.abortAllClaims fun laws _ hw => State.silent_of_claim (s := s) laws hw
    | kind | length | source => exact bad
  | ignoredFrame => cases run; exact here
  | contention => cases run; exact .ite here (same rfl rfl rfl rfl rfl)
  | contentionLost | sendingCutShort => cases run; exact same rfl rfl rfl rfl rfl
  | sendingComplete => cases run; exact .ite (Stored.handReports (same rfl rfl rfl rfl rfl)) here
  | reportHanded => cases run; exact here.handReport

end Sys2Proof.Machine

namespace Sys2Proof.Machine

variable {s t u : State} {i j : Slot} {r : Record}

/-! ## A step -/

/-- A step is the store's work, or PIN_RESET. -/
theorem step_stored (run : step s = .next t) :
    (∃ rest, Stored { s with pending := rest } t)
      ∨ ∃ pending strap, t = { State.reset with pending := pending, strap := strap } := by
  unfold step at run
  split at run
  · cases run
    exact .inl ⟨s.pending, .refl⟩
  · next c rest _ =>
    by_cases reset : ∃ pins, c = .pinReset pins
    · obtain ⟨pins, rfl⟩ := reset
      cases run
      exact .inr ⟨_, _, rfl⟩
    · exact .inl ⟨rest, exec_stored (fun pins e => reset ⟨pins, e⟩) run⟩

theorem State.record_reset (pending : List Instr) (strap : Station) (j : Slot) :
    ({ State.reset with pending := pending, strap := strap } : State).record j = none := by
  simp [State.record, State.reset]

/-- After PIN_RESET every page is on the free list (R135). -/
theorem State.pagesKept_reset (pending : List Instr) (strap : Station) :
    ({ State.reset with pending := pending, strap := strap } : State).pagesKept := by
  refine ⟨fun j r hr => absurd ((State.record_reset pending strap j).symm.trans hr) nofun, ?_⟩
  have none : ({ State.reset with pending := pending, strap := strap } : State).heldPages = [] :=
    List.flatMap_eq_nil_iff.mpr fun j _ => State.pagesOf_none (State.record_reset pending strap j)
  rw [State.pagesConserved, none, List.append_nil, State.reset]

/-- Settles O53: each operation of the store moves pages from one place to another, and gives a record's back before
it enters REPORTING. -/
theorem stepKeepsPages : Obligations.StepKeepsPages := by
  unfold Obligations.StepKeepsPages
  intro s t empty conserved run
  rcases step_stored run with ⟨rest, stored⟩ | ⟨pending, strap, rfl⟩
  · exact stored.pagesKept ⟨empty, conserved⟩
  · exact State.pagesKept_reset pending strap

/-- Settles O54: the text memory changes by the storing of chunks alone. -/
theorem stepKeepsText : Obligations.StepKeepsText := by
  unfold Obligations.StepKeepsText
  intro s t canonical run
  rcases step_stored run with ⟨rest, stored⟩ | ⟨pending, strap, rfl⟩
  · exact stored.textCanonical canonical
  · rfl

/-- Settles O56: a record is made only under a key that no record holds, and a claim window opens only below the
limit of 8. -/
theorem stepKeepsKeysAndClaims : Obligations.StepKeepsKeysAndClaims := by
  unfold Obligations.StepKeepsKeysAndClaims
  intro s t distinct bounded run
  rcases step_stored run with ⟨rest, stored⟩ | ⟨pending, strap, rfl⟩
  · exact ⟨stored.keysDistinct distinct, stored.claimsBounded bounded⟩
  · refine ⟨fun i j r r' hr => ?_, Nat.zero_le _⟩
    rw [State.record_reset] at hr
    cases hr

/-- Under the laws of entries and messages, a step keeps a record behind each report (R143, R145). -/
theorem step_reportsOwned (laws : s.Governed) (owned : s.reportsOwned) (run : step s = .next t) : t.reportsOwned := by
  rcases step_stored run with ⟨rest, stored⟩ | ⟨pending, strap, rfl⟩
  · exact stored.reportsOwned (s := { s with pending := rest }) ⟨laws.claiming, laws.ships, laws.messages⟩ owned
  · exact fun p hp => absurd hp List.not_mem_nil

theorem step_claimingTelex (telex : s.claimingTelex) (run : step s = .next t) : t.claimingTelex := by
  rcases step_stored run with ⟨rest, stored⟩ | ⟨pending, strap, rfl⟩
  · exact stored.claimingTelex telex
  · intro j r hr
    rw [State.record_reset] at hr
    cases hr

end Sys2Proof.Machine

namespace Sys2Proof.Machine

variable {s t : State} {i : Slot} {r : Record} {key : Key}

/-! ## Characters in the pool -/

/-- Two positions of a text within its pages lie at one address only where they are one (R121, R135). -/
theorem charAddress_inj {pages : List PageId} (nodup : pages.Nodup) {p q : Nat} (hp : 1 ≤ p) (hq : 1 ≤ q)
    (hp' : p ≤ 32 * pages.length) (hq' : q ≤ 32 * pages.length) (same : charAddress pages p = charAddress pages q) :
    p = q := by
  have hi : (p - 1) / 32 < pages.length := by omega
  have hj : (q - 1) / 32 < pages.length := by omega
  simp only [charAddress, Config.pageSize, List.getD_eq_getElem _ _ hi, List.getD_eq_getElem _ _ hj] at same
  have page : pages[(p - 1) / 32].val = pages[(q - 1) / 32].val := by omega
  have index := nodup.getElem_inj_iff.mp (Fin.ext page)
  omega

/-- Characters written into pages of their own read back (R139, R140). -/
theorem read_writeChars {pages : List PageId} (nodup : pages.Nodup) (bs : List Byte) : ∀ (m : Memory) (start : Nat),
    Memory.wf m = true → 1 ≤ start → start + bs.length ≤ 32 * pages.length + 1 →
    (List.range bs.length).map (fun j => (writeChars pages m start bs).read (charAddress pages (start + j))) = bs := by
  induction bs with
  | nil => exact fun _ _ _ _ _ => rfl
  | cons b bs ih =>
    intro m start wf hstart room
    rw [List.length_cons] at room
    have written := Memory.wf_write wf (charAddress_lt pages start) b
    have head : (writeChars pages m start (b :: bs)).read (charAddress pages start) = b := by
      rw [writeChars, Memory.read_writeChars_ne _ _ _ _ _ written fun j hj same => ?_, Memory.read_write_self wf]
      have := charAddress_inj nodup (by omega) hstart (by omega) (by omega) same
      omega
    have tail := ih (m.write (charAddress pages start) b) (start + 1) written (by omega) (by omega)
    rw [List.length_cons, List.range_succ_eq_map, List.map_cons, List.map_map, Nat.add_zero, head]
    refine congrArg (b :: ·) (Eq.trans (List.map_congr_left fun j _ => ?_) tail)
    rw [Function.comp_apply, writeChars, Nat.add_right_comm, Nat.add_assoc]

/-! ## A TEXT taken -/

/-- A TEXT in range that the port takes goes to the store (R138, R168). -/
theorem exec_text_taken {h : Header} {seq : Fin 256} {chunk : List Byte}
    (taken : s.reception .text h key.station true = .taken) (nonempty : 1 ≤ chunk.length) (short : chunk.length ≤ 48) :
    exec (.text h key seq chunk) s = .next (s.takeText h key seq.val chunk) := by
  have inRange : (decide (1 ≤ chunk.length) && decide (chunk.length ≤ 48)) = true := by simp [nonempty, short]
  exact congrArg Host.Outcome.next (State.receive_taken (inRange ▸ taken) _)

/-- A TEXT for a LOADING record that is addressed as the record's kind asks (R138). -/
theorem State.takeText_loads {h : Header} {seq : Nat} {chunk : List Byte} (held : s.recordUnder key = some (i, r))
    (loading : r.state = .loading)
    (here : ((∃ x, r.body = .telex x) ∧ h.dest = s.strap) ∨ ((∃ b, r.body = .bulletin b) ∧ h.dest = 63)) :
    s.takeText h key seq chunk = s.loadChunk i r seq chunk := by
  obtain ⟨found, hr⟩ := State.recordUnder_spec held
  rcases here with ⟨⟨x, hb⟩, dest⟩ | ⟨⟨b, hb⟩, dest⟩
  · simp [State.takeText, found, hr, loading, hb, dest]
  · simp [State.takeText, found, hr, loading, hb, dest, allStations]

/-- A TEXT for a LOADING telex record that is addressed to another station (R164). -/
theorem State.takeText_drops {h : Header} {seq : Nat} {chunk : List Byte} {x : Telex}
    (held : s.recordUnder key = some (i, r)) (loading : r.state = .loading) (hb : r.body = .telex x)
    (other : h.dest ≠ s.strap) (one : h.dest ≠ 63) : s.takeText h key seq chunk = s.dropTaken i := by
  obtain ⟨found, hr⟩ := State.recordUnder_spec held
  simp [State.takeText, found, hr, loading, hb, other, allStations, one]

/-- The page-list after a chunk is as long as the text stored asks (R121, R139). -/
theorem Record.length_pageList_withChunk {size : Nat} (listed : r.pageList.length = (r.loaded + 31) / 32)
    (room : (r.loaded + size + 31) / 32 ≤ r.pageList.length + r.reserved.length) :
    (r.withChunk size).pageList.length = (r.loaded + size + 31) / 32 := by
  simp only [Record.withChunk, List.length_append, List.length_take, pagesFor, ceilDiv, Config.pageSize]
  omega

/-- Settles O30: the chunk fills the next positions of the text, whose pages are the record's own. -/
theorem textChunkStored : Obligations.TextChunkStored := by
  unfold Obligations.TextChunkStored
  intro h key seq chunk s i r taken nonempty short held loading telex bulletin next size canonical nodup listed room
  obtain ⟨-, hr⟩ := State.recordUnder_spec held
  have here : ((∃ x, r.body = .telex x) ∧ h.dest = s.strap) ∨ ((∃ b, r.body = .bulletin b) ∧ h.dest = 63) := by
    cases hb : r.body with
    | telex x => exact .inl ⟨⟨x, rfl⟩, telex ⟨x, hb⟩⟩
    | bulletin b => exact .inr ⟨⟨b, rfl⟩, bulletin ⟨b, hb⟩⟩
  have stored : s.loadChunk i r seq.val chunk = s.storeChunk i r chunk := by
    rw [State.loadChunk, if_neg (by omega), if_pos ⟨next, size⟩]
  have pages : (r.withChunk chunk.length).pageList ++ (r.withChunk chunk.length).reserved = r.pageList ++ r.reserved := by
    simp [Record.withChunk]
  have long := Record.length_pageList_withChunk listed room
  have own : (r.withChunk chunk.length).pageList.Nodup := (List.nodup_append.mp (pages ▸ nodup)).1
  refine ⟨s.storeChunk i r chunk, r.withChunk chunk.length, ?_, State.record_setRecord_self _ _ _,
    fun j hj => State.record_setRecord_ne _ _ hj, rfl, ?_, fun a away => ?_, pages, long, ?_⟩
  · rw [exec_text_taken taken nonempty short, State.takeText_loads held loading here, stored]
  · exact read_writeChars own chunk s.text (r.loaded + 1) canonical (by omega) (by omega)
  · exact Memory.read_writeChars_ne _ _ _ _ _ canonical fun j hj same => away j hj same.symm
  · simp only [Record.withChunk, loading]

/-- A TEXT that is not the chunk awaited and none stored before ends the loading (R139, R142). -/
theorem State.loadChunk_gap {seq : Nat} {chunk : List Byte}
    (gap : r.nextSeq < seq ∨ (seq = r.nextSeq ∧ chunk.length ≠ min 48 (r.n - 48 * r.nextSeq))) :
    s.loadChunk i r seq chunk = (s.endLoading i (.refused .textGap)).handReports := by
  rw [State.loadChunk, if_neg (by omega), if_neg]
  rintro ⟨next, size⟩
  rcases gap with later | ⟨-, wrong⟩
  · omega
  · exact wrong size

/-- Settles O31: each way out of LOADING ends the record's work with its report, or drops it. -/
theorem loadingRefusedOrDropped : Obligations.LoadingRefusedOrDropped := by
  unfold Obligations.LoadingRefusedOrDropped
  intro h key seq chunk s i r held loading handed received here
  obtain ⟨-, hr⟩ := State.recordUnder_spec held
  refine ⟨fun timer => ?_, fun ⟨taken, nonempty, short⟩ addressed earlier => ?_,
    fun ⟨taken, nonempty, short⟩ addressed gap => ?_, fun x ⟨taken, nonempty, short⟩ hb other one => ?_⟩
  · refine ⟨_, ?_, State.workEnded_endLoading hr handed (.refused .textTimeout)⟩
    simp [exec, execLoadTimerExpiry, held, loading, timer]
  · rw [exec_text_taken taken nonempty short, State.takeText_loads held loading addressed, State.loadChunk,
      if_pos earlier]
  · refine ⟨_, ?_, State.workEnded_endLoading hr handed (.refused .textGap)⟩
    rw [exec_text_taken taken nonempty short, State.takeText_loads held loading addressed, State.loadChunk_gap gap]
  · refine ⟨_, ?_, State.telexDropped_dropTaken hr hb⟩
    rw [exec_text_taken taken nonempty short, State.takeText_drops held loading hb other one]

/-! ## A WITHDRAW taken -/

theorem exec_withdraw_taken {h : Header} (taken : s.reception .withdraw h key.station true = .taken)
    (held : s.recordUnder key = some (i, r)) : exec (.withdraw h key) s = .next (s.withdrawRecord i r) := by
  simp [exec, execWithdraw, State.receive_taken taken, held]

/-- A WITHDRAW that ends the record's work (R147, R148, R83). -/
theorem State.withdrawRecord_ends (hr : s.record i = some r)
    (queued : r.state = .loading ∨ ((∃ x, r.body = .telex x) ∧ r.state = .ready)) :
    s.withdrawRecord i r = (s.endLoading i (.withdrawn false)).handReports := by
  rcases queued with state | ⟨⟨x, hb⟩, state⟩
  · cases hb : r.body <;> simp [State.withdrawRecord, State.endLoading, hr, hb, state]
  · simp [State.withdrawRecord, State.endLoading, hr, hb, state]

/-- A WITHDRAW that marks the record (R46, R83). -/
theorem State.withdrawRecord_marks
    (working : ((∃ x, r.body = .telex x) ∧ r.state = .onAir) ∨ ((∃ b, r.body = .bulletin b) ∧ r.state = .ready)) :
    s.withdrawRecord i r = s.modRecord i fun r => { r with withdrawMark := true } := by
  rcases working with ⟨⟨x, hb⟩, state⟩ | ⟨⟨b, hb⟩, state⟩ <;> simp [State.withdrawRecord, hb, state]

theorem State.withdrawRecord_reporting (state : r.state = .reporting) : s.withdrawRecord i r = s := by
  cases hb : r.body <;> simp [State.withdrawRecord, hb, state]

/-- Settles O32: a WITHDRAW taken goes to the record its key names, and acts by that record's kind and state. -/
theorem withdrawActsByState : Obligations.WithdrawActsByState := by
  unfold Obligations.WithdrawActsByState
  intro h key s i r taken held handed telex bulletin
  obtain ⟨found, hr⟩ := State.recordUnder_spec held
  rw [exec_withdraw_taken taken held]
  refine ⟨fun queued => ?_, fun working => ?_, fun w ⟨x, hb⟩ claiming window slot => ?_, fun reporting => ?_⟩
  · rw [State.withdrawRecord_ends hr queued]
    exact ⟨_, rfl, State.workEnded_endLoading hr handed _⟩
  · rw [State.withdrawRecord_marks working]
    exact ⟨_, rfl, by rw [State.record_modRecord_self, hr]; rfl, fun j => s.record_modRecord_ne _, rfl⟩
  · obtain ⟨r', hr', rkey⟩ := State.findKey_spec found
    obtain rfl : r = r' := Option.some.inj (hr.symm.trans hr')
    have wkey : w.key = key := by simpa using List.find?_some window
    refine ⟨s.endClaim key w.slot, ?_, State.claimEnded_endClaim wkey s rfl, ?_⟩
    · simp [State.withdrawRecord, hb, claiming, rkey, slot]
    · show (s.returnPages w.slot).queue = s.queue
      rw [State.returnPages_frame]
  · rw [State.withdrawRecord_reporting reporting]

/-! ## A report handed -/

/-- The report list is handed from its head while the queue holds 16 frames or fewer (R144). -/
theorem State.handReport_room {p : Report} {rest : List Report} (first : s.reports = p :: rest)
    (hr : s.record p.slot = some r) (room : s.queue.length ≤ 16) :
    s.handReport = State.freeIfSpent
      { s with reports := rest, queue := enqueue (reportFrame s r p.item) s.queue } p.slot := by
  have fits : s.queue.length ≤ Config.reportLimit := room
  simp [State.handReport, first, hr, fits]

theorem State.handReport_full (full : 16 < s.queue.length) : s.handReport = s := by
  have crowded : ¬ s.queue.length ≤ Config.reportLimit := Nat.not_le.mpr full
  unfold State.handReport
  split
  · rfl
  · rw [if_neg crowded]

theorem State.freeIfSpent_spent (hr : s.record i = some r) (reporting : r.state = .reporting)
    (spent : ∀ p ∈ s.reports, p.slot ≠ i) : s.freeIfSpent i = s.setRecord i none := by
  have none : ¬ s.reports.any (fun p => p.slot = i) := by simpa using spent
  simp only [State.freeIfSpent, hr, if_pos (And.intro reporting none)]

theorem State.freeIfSpent_kept (hr : s.record i = some r)
    (kept : r.state ≠ .reporting ∨ ∃ p ∈ s.reports, p.slot = i) : s.freeIfSpent i = s := by
  have stays : ¬ (r.state = .reporting ∧ ¬ s.reports.any (fun p => p.slot = i)) := by
    rcases kept with working | ⟨p, hp, slot⟩
    · exact fun h => working h.1
    · exact fun h => h.2 (List.any_eq_true.mpr ⟨p, hp, decide_eq_true slot⟩)
  simp only [State.freeIfSpent, hr, if_neg stays]

/-- A slot freed, or not: nothing else of the card changes (R145). -/
theorem State.freeIfSpent_frame (s : State) (i : Slot) :
    s.freeIfSpent i = { s with records := (s.freeIfSpent i).records }
      ∧ ∀ j, j ≠ i → (s.freeIfSpent i).record j = s.record j := by
  rcases s.freeIfSpent_cases i with e | ⟨r, -, -, -, e⟩
  · rw [e]
    exact ⟨rfl, fun _ _ => rfl⟩
  · rw [e]
    exact ⟨rfl, fun j => s.record_setRecord_ne none⟩

/-- Settles O33: the head of the report list enters the queue as its frame, and its record is freed where that was
its last report. -/
theorem oldestReportHanded : Obligations.OldestReportHanded := by
  unfold Obligations.OldestReportHanded
  intro s p rest r first hr
  refine ⟨?_, fun room => ?_, fun full => congrArg Host.Outcome.next (State.handReport_full full)⟩
  · cases hp : p.item <;> exact ⟨rfl, rfl⟩
  · have handed := State.handReport_room first hr room
    generalize hu : ({ s with reports := rest, queue := enqueue (reportFrame s r p.item) s.queue } : State) = u at handed
    have reports : u.reports = rest := by rw [← hu]
    have record : ∀ j, u.record j = s.record j := State.record_congr (by rw [← hu])
    obtain ⟨frame, others⟩ := u.freeIfSpent_frame p.slot
    refine ⟨u.freeIfSpent p.slot, congrArg Host.Outcome.next handed, ?_, rfl, fun j hj => (others j hj).trans (record j),
      fun ⟨reporting, spent⟩ => ?_, fun kept => ?_⟩
    · rw [← hu] at frame ⊢
      exact frame
    · rw [State.freeIfSpent_spent ((record _).trans hr) reporting (reports ▸ spent), State.record_setRecord_self]
    · rw [State.freeIfSpent_kept ((record _).trans hr) (reports ▸ kept), record, hr]

end Sys2Proof.Machine

namespace Sys2Proof.Machine

variable {s t u : State} {l : LineId} {i : Slot} {r : Record} {key : Key} {w : ClaimWindow}

/-! ## Reports that wait -/

/-- A report that can be handed is: the list gets shorter, or more than 16 frames are queued (R144). -/
theorem State.handReport_progress (s : State) :
    s.handReport.reports.length = s.reports.length - 1 ∨ Config.reportLimit < s.queue.length := by
  unfold State.handReport
  split
  · next none => exact .inl (by rw [none]; rfl)
  · next p rest first =>
    split
    · split
      · exact .inl (by rw [first]; rfl)
      · rw [(State.freeIfSpent_frame _ _).1, first]
        exact .inl rfl
    · next crowded => exact .inr (Nat.not_le.mp crowded)

theorem State.handMany_full (full : 16 < s.queue.length) (n : Nat) : State.handMany n s = s := by
  induction n with
  | zero => rfl
  | succ n ih => rw [State.handMany, State.handReport_full full, ih]

theorem State.handMany_handed (n : Nat) : ∀ s : State, s.reports.length ≤ n → (State.handMany n s).reportsHanded := by
  induction n with
  | zero => exact fun s none => .inl (List.length_eq_zero_iff.mp (Nat.le_zero.mp none))
  | succ n ih =>
    intro s fuel
    rcases s.handReport_progress with less | crowded
    · exact ih s.handReport (by omega)
    · rw [State.handMany_full crowded]
      exact .inr crowded

/-- The store hands reports until none waits or more than 16 frames are queued (R144). -/
theorem State.handReports_handed (s : State) : s.handReports.reportsHanded := State.handMany_handed _ s le_rfl

/-- With the reports as they are and a queue no shorter, a report waits only behind more than 16 frames still. -/
theorem State.reportsHanded.longer (h : s.reportsHanded) (reports : t.reports = s.reports)
    (queue : s.queue.length ≤ t.queue.length) : t.reportsHanded :=
  h.imp reports.trans fun crowded => crowded.trans_le queue

theorem State.reportsHanded.same (h : s.reportsHanded) (reports : t.reports = s.reports) (queue : t.queue = s.queue) :
    t.reportsHanded :=
  h.longer reports (by rw [queue])

theorem State.reportsHanded.modLine (h : s.reportsHanded) (f : Line → Line) : (s.modLine l f).reportsHanded :=
  h.same rfl rfl

theorem State.reportsHanded.modRecord (h : s.reportsHanded) (f : Record → Record) : (s.modRecord i f).reportsHanded :=
  h.same rfl rfl

theorem State.reportsHanded.window {ws : List ClaimWindow} (h : s.reportsHanded) :
    ({ s with claims := ws } : State).reportsHanded :=
  h.same rfl rfl

theorem State.reportsHanded.ite {q : Prop} [Decidable q] (yes : t.reportsHanded) (no : u.reportsHanded) :
    (if q then t else u).reportsHanded :=
  iteInduction (motive := State.reportsHanded) (fun _ => yes) fun _ => no

/-- A frame offered makes the queue no shorter: one that it displaces makes room for it (R173). -/
theorem State.offerFrame_longer (s : State) (f : Frame) : s.queue.length ≤ (s.offerFrame f).queue.length := by
  rcases s.offerFrame_cases f with ⟨-, e⟩ | ⟨-, -, e⟩ | ⟨j, x, -, -, hj, e⟩
  · rw [e, length_enqueue]
    exact Nat.le_succ _
  · rw [e, (State.tellDiscard_frame _ _).2.1]
    exact le_rfl
  · have hlt : j < s.queue.length := (List.getElem?_eq_some_iff.mp hj).1
    rw [e, (State.tellDiscard_frame _ _).2.1, length_enqueue, List.length_eraseIdx_of_lt hlt]
    omega

theorem State.reportsHanded.offerFrame (h : s.reportsHanded) {f : Frame} : (s.offerFrame f).reportsHanded :=
  h.longer (s.offerFrame_frame f).2.2.1 (s.offerFrame_longer f)

/-- A boundary hands reports, and its answers make the queue no shorter (R144, R13, R15). -/
theorem State.reportsHanded.answer (h : s.reportsHanded) (m : Mode) (order : Option (Station × OrderResult)) :
    (s.answer l m order).reportsHanded := by
  have silence : ∀ dest,
      ((s.modLine l fun x => { x with silenceAnswer := none }).offerLineState l dest m .accepted).reportsHanded :=
    fun _ => State.reportsHanded.offerFrame (h.modLine _)
  unfold State.answer
  cases (s.line l).silenceAnswer with
  | none =>
    cases order with
    | none => exact h
    | some p => exact h.offerFrame
  | some dest =>
    cases order with
    | none => exact silence dest
    | some p => exact (silence dest).offerFrame

theorem State.boundary_handed (s : State) (l : LineId) : (s.boundary l).reportsHanded := by
  rw [State.boundary_eq, State.finish, State.handOver]
  exact ((State.handReports_handed _).answer _ _).modLine _

/-! ## The store and the claims -/

theorem State.reportsHanded.returnPages (h : s.reportsHanded) (i : Slot) : (s.returnPages i).reportsHanded := by
  rw [State.returnPages_frame]
  exact h.same rfl rfl

theorem State.reportsHanded.leaveEntry (h : s.reportsHanded) (i : Slot) : (s.leaveEntry i).reportsHanded := by
  rcases s.leaveEntry_cases i with e | ⟨r, x, m, hr, hb, hm⟩
  · rwa [e]
  · rw [State.leaveEntry_eq hr hb hm]
    exact h.same rfl rfl

theorem State.reportsHanded.dropTaken (h : s.reportsHanded) (i : Slot) : (s.dropTaken i).reportsHanded :=
  State.reportsHanded.same ((h.returnPages i).leaveEntry i) rfl rfl

theorem State.reportsHanded.endClaim (h : s.reportsHanded) (i : Slot) : (s.endClaim key i).reportsHanded :=
  State.reportsHanded.same (h.returnPages i) rfl rfl

theorem State.reportsHanded.loadChunk (h : s.reportsHanded) (seq : Nat) (chunk : List Byte) :
    (s.loadChunk i r seq chunk).reportsHanded :=
  .ite h (.ite (h.same rfl rfl) (State.handReports_handed _))

theorem State.reportsHanded.takeText (h : s.reportsHanded) (hd : Header) (key : Key) (seq : Nat) (chunk : List Byte) :
    (s.takeText hd key seq chunk).reportsHanded := by
  unfold State.takeText
  split
  · exact h
  · split
    · exact h
    · split
      · split
        · exact .ite (h.loadChunk seq chunk) (.ite h (h.dropTaken _))
        · exact .ite (h.loadChunk seq chunk) h
      · exact h

theorem State.reportsHanded.withdrawRecord (h : s.reportsHanded) : (s.withdrawRecord i r).reportsHanded := by
  unfold State.withdrawRecord
  split
  · split
    · exact h.endClaim i
    · exact State.handReports_handed _
    · exact State.handReports_handed _
    · exact h.same rfl rfl
    · exact h
  · split
    · exact State.handReports_handed _
    · exact h.same rfl rfl
    all_goals exact h

theorem State.reportsHanded.createRecord {n : Nat} {st : RecordState} {timer : Bool} {b : Body} (h : s.reportsHanded)
    (created : s.createRecord key n st timer b = some (i, t)) : t.reportsHanded := by
  unfold State.createRecord at created
  split at created
  · split at created
    · cases created
    · cases created
      exact h.same rfl rfl
  · cases created

theorem State.reportsHanded.sendTake (h : s.reportsHanded) (i : Slot) : (s.sendTake key i).reportsHanded :=
  State.reportsHanded.offerFrame (h.modRecord fun r => { r with takeWaiting := true })

theorem State.reportsHanded.takeOffer (h : s.reportsHanded) (key : Key) (ship n : Nat) (band : Band)
    (clearAfter : Bool) : (s.takeOffer key ship n band clearAfter).reportsHanded := by
  unfold State.takeOffer
  split
  · unfold State.evaluateOffer
    split
    · split
      · exact h
      · next created => exact State.reportsHanded.offerFrame (h.createRecord created).window
    · exact h
  · next i _ _ =>
    split
    · exact h
    · split
      · exact h
      · exact h
      all_goals exact .ite h (h.sendTake i)

theorem State.reportsHanded.placeMessage {ship : Nat} {band : Band} (h : s.reportsHanded)
    (placed : s.placeMessage l i ship band = some t) : t.reportsHanded := by
  unfold State.placeMessage at placed
  split at placed
  · cases placed
    exact h.same rfl rfl
  · split at placed
    · cases placed
    · cases placed
      exact h.same rfl rfl

theorem State.reportsHanded.takeMessage (h : s.reportsHanded) : (s.takeMessage w).reportsHanded := by
  have lost : (s.endClaim w.key w.slot).reportsHanded := h.endClaim w.slot
  unfold State.takeMessage
  split
  · exact lost
  · split
    · exact lost
    · next l _ =>
      split
      · exact lost
      · next t1 placed =>
        have loading := (h.placeMessage placed).modRecord (i := w.slot) fun r =>
          { r.modTelex (fun x => { x with line := some l }) with state := .loading, loadTimer := true }
        exact (State.reportsHanded.sendTake (key := w.key) loading.window w.slot).same rfl rfl

theorem State.reportsHanded.resolveClaim (h : s.reportsHanded) : (s.resolveClaim w).reportsHanded :=
  .ite (State.handReports_handed _) (.ite h.takeMessage (h.endClaim w.slot))

theorem State.reportsHanded.takeFromOther (h : s.reportsHanded) (source : Station) (key : Key) :
    (s.takeFromOther source key).reportsHanded := by
  unfold State.takeFromOther
  split
  · exact h
  · split
    · exact h
    · split
      · split
        · exact State.handReports_handed _
        · exact h
      · exact .ite (h.dropTaken _) h
      all_goals exact h

theorem State.reportsHanded.takeEcho (h : s.reportsHanded) (key : Key) : (s.takeEcho key).reportsHanded := by
  unfold State.takeEcho
  split
  · exact h.same rfl rfl
  · exact h

theorem State.reportsHanded.joinQueue {kind : ClassType} {cls : Nat} (h : s.reportsHanded) :
    (s.joinQueue l i kind cls).reportsHanded :=
  h.modLine _

theorem State.reportsHanded.acceptPost (h : s.reportsHanded) (key : Key) (cls : Fin 16) (n : Nat)
    (targets : List LineId) : (s.acceptPost key cls n targets).reportsHanded := by
  unfold State.acceptPost
  dsimp only
  split
  · exact h.offerFrame
  · next created =>
    exact List.foldlRecOn (motive := State.reportsHanded) targets _ (h.createRecord created) fun _ hv _ _ =>
      hv.joinQueue

theorem State.reportsHanded.takePost (h : s.reportsHanded) (key : Key) (cls : Fin 16) (n : Nat)
    (channels : List (Fin 1024)) : (s.takePost key cls n channels).reportsHanded := by
  unfold State.takePost
  split
  · exact h
  · split
    · exact h
    · split
      · exact h.offerFrame
      · exact h.acceptPost key cls n _

/-! ## The clock, the orders and STATUS -/

theorem State.reportsHanded.openDue {due : Nat → Bool} {ls : List LineId} (h : s.reportsHanded) :
    ((s.setMarks due).handOpenings ls).reportsHanded := by
  rw [State.handOpenings_frame]
  exact h.same rfl rfl

theorem State.reportsHanded.secondPasses (h : s.reportsHanded) : s.secondPasses.reportsHanded := by
  have minute : ({ s with second := 0, minute := s.minute + 1 } : State).reportsHanded := h.same rfl rfl
  have cleared : (if s.minute + 1 = 0 then ({ s with second := 0, minute := s.minute + 1 } : State).clearMarks
      else { s with second := 0, minute := s.minute + 1 }).reportsHanded := .ite (minute.same rfl rfl) minute
  exact .ite (.ite cleared.openDue cleared) (h.same rfl rfl)

theorem State.reportsHanded.setClock (h : s.reportsHanded) (minute second : Nat) :
    (s.setClock minute second).reportsHanded := by
  have due : (s.dueWork minute).reportsHanded := by
    rw [State.dueWork_frame]
    exact h.same rfl rfl
  have worked : (if s.timeValid then s.dueWork minute else s).reportsHanded := .ite due h
  unfold State.setClock
  split
  · exact worked.same rfl rfl
  · exact h

theorem State.reportsHanded.takeOrder (h : s.reportsHanded) (order : LineOrder) (source : Station) :
    (s.takeOrder l order source).reportsHanded := by
  unfold State.takeOrder
  split
  · exact h.offerFrame
  · split
    · exact h.same rfl rfl
    · exact h.offerFrame

theorem State.reportsHanded.answerQuery (h : s.reportsHanded) (dest : Station) (selector : Nat) :
    (s.answerQuery dest selector).reportsHanded := by
  unfold State.answerQuery
  split
  · exact h.offerFrame
  · split
    · exact h.offerFrame
    · exact h

theorem State.reportsHanded.takeAnnounce (h : s.reportsHanded) (source : Station) (a : Announcement) :
    (s.takeAnnounce source a).reportsHanded :=
  .ite h (State.handReports_handed _)

/-! ## The commands -/

theorem State.reportsHanded.receive {act : State → State} (h : s.reportsHanded) (acted : (act s).reportsHanded)
    (k : FrameKind) (hd : Header) (poster : Station) (ok : Bool) : (s.receive k hd poster ok act).reportsHanded :=
  State.receive_keeps (P := State.reportsHanded) h (h.same rfl rfl) (h.same rfl rfl) acted k hd poster ok

theorem length_startSending (q : List Queued) : (startSending q).length = q.length := by
  cases q <;> rfl

theorem length_stopSending (q : List Queued) : (stopSending q).length = q.length := List.length_map _

/-- A report that cannot be handed waits on, and with none pending none is handed (R144). -/
theorem State.reportsHanded.handReport (h : s.reportsHanded) : s.handReport.reportsHanded := by
  rcases h with none | crowded
  · rw [State.handReport, none]
    exact .inl none
  · rw [State.handReport_full crowded]
    exact .inr crowded

/-- Each command that makes a report or shortens the queue hands reports; the others leave the reports as they
are (R144). -/
theorem exec_reportsHanded {c : Instr} (h : s.reportsHanded) (run : exec c s = .next t) : t.reportsHanded := by
  cases c with
  | pinReset => cases run; exact .inl rfl
  | configurationReadEnd result =>
    cases run
    refine .ite ?_ h
    split
    · next c _ => exact State.reportsHanded.offerFrame (s := s.settleConfig c) (h.same rfl rfl)
    · exact State.reportsHanded.offerFrame (s := s.settleFault) (h.same rfl rfl)
  | startIntervalExpiry | outcomeRecord => cases run; exact h.same rfl rfl
  | boundary l => cases run; exact .ite (s.boundary_handed l) h
  | secondTimerExpiry => cases run; exact .ite h.secondPasses h
  | time => cases run; exact h.receive (h.setClock _ _) ..
  | loadTimerExpiry =>
    cases run
    split
    · exact .ite (State.handReports_handed _) h
    · exact h
  | claimWindowExpiry =>
    cases run
    split
    · exact h.resolveClaim
    · exact h
  | offer => cases run; exact h.receive (h.takeOffer ..) ..
  | claim => cases run; exact h.receive (h.same rfl rfl) ..
  | takeReceived =>
    cases run
    refine h.receive ?_ ..
    split
    · exact h.takeEcho _
    · exact h.takeFromOther _ _
  | text => cases run; exact h.receive (h.takeText ..) ..
  | post => cases run; exact h.receive (h.takePost ..) ..
  | withdraw =>
    cases run
    refine h.receive ?_ ..
    split
    · exact h.withdrawRecord
    · exact h
  | silence | resume => cases run; exact h.receive (h.same rfl rfl) ..
  | stopLine | startLine | patternOn | patternOff => cases run; exact h.receive (h.takeOrder _ _) ..
  | restart =>
    cases run
    exact h.receive (act := fun s => s.restarted.handReports.offerAnnounce false true)
      (State.handReports_handed _).offerFrame ..
  | announce => cases run; exact h.receive (h.takeAnnounce _ _) ..
  | statusQuery => cases run; exact h.receive (h.answerQuery _ _) ..
  | badFrame check =>
    cases run
    refine .ite ?_ h
    cases check with
    | crc => exact State.handReports_handed _
    | kind | length | source => exact h.same rfl rfl
  | ignoredFrame => cases run; exact h
  | contention => cases run; exact .ite h (h.longer rfl (length_startSending _).ge)
  | contentionLost | sendingCutShort => cases run; exact h.longer rfl (length_stopSending _).ge
  | sendingComplete => cases run; exact .ite (State.handReports_handed _) h
  | reportHanded => cases run; exact h.handReport

theorem step_reportsHanded (h : s.reportsHanded) (run : step s = .next t) : t.reportsHanded := by
  unfold step at run
  split at run
  · cases run
    exact h
  · next c rest _ => exact exec_reportsHanded (s := { s with pending := rest }) h run

/-- Settles O52: the commands that make reports or shorten the queue hand them; each report is made of a record whose
work has ended or of a bulletin, and its record goes only with the last of them; a record in CLAIMING is made by an
OFFER alone. -/
theorem stepHandsReports : Obligations.StepHandsReports := by
  unfold Obligations.StepHandsReports
  exact ⟨fun s t h run => step_reportsHanded h run,
    fun s t claiming ships messages owned run => step_reportsOwned ⟨claiming, ships, messages⟩ owned run,
    fun s t telex run => step_claimingTelex telex run⟩

end Sys2Proof.Machine
